-- ==== Sys2Proof/Word.lean ====
section
/-! DEFINITION. The word types of the block (00_scope.md rule R14): every value the block holds is unsigned. -/

namespace Sys2Proof

/-- A byte of the wire, of a buffer or of the accumulator: 8 unsigned bits (R14). -/
abbrev Byte := BitVec 8

/-- A 16-bit field: LEN and LENGTH (R82, R89). -/
abbrev Half := BitVec 16

/-- A host register and a command word: 32 bits (R51, R80). -/
abbrev Word := BitVec 32

end Sys2Proof
end

