-- ==== Sys2Proof/Config.lean ====
section
/-! DEFINITION. What an implementation fixes: the parameters of 00_scope.md section 5 (R8 to R13), the constants of
R12, and the free values, which the spec leaves open and nothing in Lean can evaluate. -/

namespace Sys2Proof

/-- AVAIL_CHECK (R9): how the length validator compares the available count with LEN. -/
inductive AvailCheck where
  /-- The count equals the LEN low byte: the spec's default. -/
  | lowByte
  /-- The count modulo 256 equals the LEN low byte. -/
  | lowByteMod
  /-- The count equals the whole 16-bit LEN. -/
  | full
  deriving DecidableEq, Repr

/-- The OPEN parameters "the model takes as an argument" (R9, R10, R13, R46). `step` has no argument but the state, so
the state carries them in a field that no step writes (log entry 1): a statement over all states is a statement over all
parameter values. -/
structure Params where
  /-- AVAIL_CHECK (R9). -/
  availCheck : AvailCheck
  /-- BASE divided by 0x40000: BASE "must be a multiple of 0x40000" (R10), so the multiplier is what is held. -/
  window : Nat
  /-- LOG_ENABLE (R13): "no rule of this spec reads it". -/
  logEnable : Bool
  deriving DecidableEq, Repr

/-- BASE, the address of the host window's first byte (R10). -/
def Params.base (p : Params) : Nat := p.window * 0x40000

/-- The size of the host window in bytes (R50: BASE to BASE + 0x3FFFF). -/
def Config.windowSize : Nat := 0x40000

/-- MAX_PAYLOAD, TXP_SIZE and RXP_SIZE (R8, R11). -/
def Config.maxPayload : Nat := 65534

/-- The size of TXB: MAX_PAYLOAD + 4 (R11, R40). -/
def Config.txbSize : Nat := 65538

/-- SYNC, the constant byte 0xE0 (R12, R88). -/
def Config.sync : Byte := 0xE0#8

/-- The error-report frame `E0 00 02 03 05`, a literal that is never recomputed (R90, R173). Its fourth byte is the
report code 0x03 (R91). -/
def Config.errorFrame : List Byte := [0xE0#8, 0x00#8, 0x02#8, 0x03#8, 0x05#8]

/-- FREE VALUE: STATUS bits [31:1] in the n-th STATUS read made while BUSY is 1: "read an unspecified value; a model
returns a free draw for them" (R24, log entry 5). -/
opaque Config.freeStatus : Nat → BitVec 31

/-- FREE VALUE: what RXP[i] holds when nothing has been written to it: "their contents are unspecified" (R39, log entry
6). No run from reset reads one. -/
opaque Config.freeRxp : Nat → Byte

end Sys2Proof
end

