-- ==== Sys2Proof/Syntax.lean ====
section
/-! DEFINITION. The block's commands: one constructor per row of spec/opcode_table.json (R80, R81, R85). -/

namespace Sys2Proof

/-- A command of the block. The operand is the LENGTH field of the command word (R82): "It takes every value from 0 to
65535", so its type is exactly that field. -/
inductive Instr where
  /-- SEND length (R130): assemble a frame from TXP and write it to the transport. -/
  | send (length : Half)
  /-- RECV (R160): read, parse and validate one frame from RXQ. -/
  | recv
  /-- CSUM length (R115): compute the checksum of TXP. -/
  | csum (length : Half)
  deriving DecidableEq, Repr

end Sys2Proof
end

