-- ==== Sys2Proof/WellFormed.lean ====
section
/-! DEFINITION. Which command words are legal (30_encoding.md rule R83). A term of Instr is well formed by its type, its
one operand being the 16-bit LENGTH field whole (R82); what can be ill formed is the WORD a host writes, and R83 gives
the three checks. -/

namespace Sys2Proof

/-- The OP field, bits [3:0] (R80). -/
def wordOp (w : Word) : BitVec 4 := w.extractLsb' 0 4

/-- The RSV field, bits [15:4], "reserved, must be 0" (R80). -/
def wordRsv (w : Word) : BitVec 12 := w.extractLsb' 4 12

/-- The LENGTH field, bits [31:16] (R80, R82). -/
def wordLength (w : Word) : Half := w.extractLsb' 16 16

/-- OP is 0x1, 0x2 or 0x3 (R81, R83). -/
def opKnown (w : Word) : Bool := wordOp w == 1#4 || wordOp w == 2#4 || wordOp w == 3#4

/-- RSV is 0 (R83). -/
def rsvClear (w : Word) : Bool := wordRsv w == 0#12

/-- LENGTH is 0 when OP is 0x2, RECV (R83). -/
def recvLengthClear (w : Word) : Bool := !(wordOp w == 2#4) || wordLength w == 0#16

/-- A legal command word: R83's three checks together. -/
def wordLegal (w : Word) : Bool := opKnown w && rsvClear w && recvLengthClear w

end Sys2Proof
end

