-- ==== Sys2Proof/Decode.lean ====
section
/-! DEFINITION. The command decoder, total on 32-bit words (30_encoding.md rules R80 to R85), and after it the encoder,
written from the same table. A command "is a single word written to CMD, never read from memory" (R72), so the decoder
takes a word and not bytes of memory. -/

namespace Sys2Proof

/-- Why a command word is illegal (R83). The block records only that it is (R216): the reason is the model's own. -/
inductive Illegal where
  /-- RSV, bits [15:4], is not 0. -/
  | reservedBits
  /-- OP is 0x0 or 0x4 to 0xF. -/
  | unknownOp
  /-- OP is 0x2 (RECV) and LENGTH is not 0. -/
  | recvWithLength
  deriving DecidableEq, Repr

/-- What a command word decodes to. -/
inductive Decoded where
  /-- The word is a command. -/
  | command (i : Instr)
  /-- The word is illegal, and why. -/
  | illegal (why : Illegal)
  deriving DecidableEq, Repr

/-- The command decode of R84: `op <- w[3:0]`, `len <- w[31:16]`, and the three tests of its first line. -/
def decode (w : Word) : Decoded :=
  if wordRsv w ≠ 0#12 then .illegal .reservedBits
  else if wordOp w = 1#4 then .command (.send (wordLength w))
  else if wordOp w = 2#4 then
    if wordLength w = 0#16 then .command .recv else .illegal .recvWithLength
  else if wordOp w = 3#4 then .command (.csum (wordLength w))
  else .illegal .unknownOp

/-- The command a decoded word stands for, if any. -/
def commandOf : Decoded → Option Instr
  | .command i => some i
  | .illegal _ => none

/-- A command word from its three fields (R80). -/
def packWord (length : Half) (op : BitVec 4) : Word := length ++ 0#12 ++ op

/-- The command word of each command (R85). -/
def encode : Instr → Word
  | .send length => packWord length 1#4
  | .recv => packWord 0#16 2#4
  | .csum length => packWord length 3#4

/-- The command word whose bits, numbered as spec/opcode_table.json numbers them, are w. A command is one 32-bit word, and
the bits above `nbits` are 0. -/
def tableWord (nbits w : Nat) : Word := BitVec.ofNat 32 (w % 2 ^ nbits)

/-- What the decoder reads from a word of spec/opcode_table.json. -/
def decodeTableWord (nbits w : Nat) : Option Instr := commandOf (decode (tableWord nbits w))

end Sys2Proof
end

