-- ==== Sys2Proof/Machine/State.lean ====
section
/-! DEFINITION. The state of the block, of its transport and of the model's own bookkeeping, as plain data (10_state.md,
20_memory.md section 4), the reasons a step can stop, and the state after reset (R240). -/

namespace Sys2Proof.Machine

/-- The sequencer state `seq`: "takes the place of a program counter" and "takes exactly one of these values" (R21). -/
inductive Seq where
  /-- IDLE: no command in progress. -/
  | idle
  /-- TX_ASM: a SEND was accepted; its length check and frame assembly are pending. -/
  | txAsm
  /-- TX_WRITE: the frame was handed to the transport; the block waits for the reply. -/
  | txWrite
  /-- CS_RUN: a CSUM was accepted; its computation is pending. -/
  | csRun
  /-- RX_HDR: the decoder is consuming header bytes; IDX counts 0 to 2. -/
  | rxHdr
  /-- RX_VALIDATE: the decoder computes LEN, releases the previous frame and checks availability. -/
  | rxValidate
  /-- RX_PAY: the decoder is consuming payload bytes; IDX counts them. -/
  | rxPay
  /-- RX_SUM: the decoder waits for the checksum byte. -/
  | rxSum
  /-- RX_VERIFY: the decoder compares checksums. -/
  | rxVerify
  /-- RX_ERRF: the error frame was handed to the transport; the decoder waits for the reply. -/
  | rxErrf
  deriving DecidableEq, Repr

/-- STATUS.LAST_OP, the last command accepted or rejected (R25); its codes are in `lastOpCode`. -/
inductive LastOp where
  /-- NONE: only between reset and the first command write. -/
  | none
  | send
  | recv
  | csum
  /-- REJECTED: the last command word was illegal. -/
  | rejected
  deriving DecidableEq, Repr

/-- STATUS.ERR, the error code of the last command (R31, R211); its codes are in `errCode`. -/
inductive Err where
  | none
  | transmitIncomplete
  | checksumMismatch
  | lengthMismatch
  | txLengthError
  | illegalCommand
  deriving DecidableEq, Repr

/-- The model-fault reasons of R217, the members of FAULTS (R43). "A model records the reason in FAULTS and the faulting
agent takes no further step": a model fault is a NEXT state, in which the other agents go on. -/
inductive ModelFault where
  /-- BUSY_COMMAND: a CMD write while BUSY is 1 (the host's). -/
  | busyCommand
  /-- HOST_ACCESS: a wrong width, an unmapped address, a read of CMD, a write to a read-only place (the host's). -/
  | hostAccess
  /-- HAZARD: an access to TXP, RXP or a result register while BUSY is 1 (the host's). -/
  | hazard
  /-- UNWRITTEN_TXP: a host read of, or a SEND or CSUM use of, a TXP byte never written since reset (the host's or the
  block's). -/
  | unwrittenTxp
  /-- RXP_RANGE: an RXP read outside the live buffer (the host's). -/
  | rxpRange
  /-- LAST_SUM_UNWRITTEN: a LAST_SUM read while SUM_VALID is 0 (the host's). -/
  | lastSumUnwritten
  deriving DecidableEq, Repr

/-- The transport's reply to a write request, what WREPLY latches (R42, R63). -/
inductive Reply where
  /-- OK(k): k bytes reported written, for any k >= 0. -/
  | ok (k : Nat)
  /-- ERR: an error instead of a count. -/
  | err
  deriving DecidableEq, Repr

/-- A move of the system that the block does not decide (R7, R62, R63, R66, R240), or the block's own turn. Which move
comes next is not the block's affair, so the state carries the moves to come as data (log entry 2). -/
inductive Move where
  /-- `MemWrite(addr, n, v)` by the host (R16, R51 to R53). -/
  | hostWrite (addr n : Nat) (v : Word)
  /-- `MemRead(addr, n)` by the host (R16, R51 to R55). -/
  | hostRead (addr n : Nat)
  /-- The host removes n bytes from the head of RXQ (R66, R96 `host-drop n`). -/
  | hostDrop (n : Nat)
  /-- The peer appends bytes to RXQ (R60, R96 `peer:`). -/
  | peerAppend (bytes : List Byte)
  /-- The transport answers the pending request with OK(k) (R63, R96 `transport: OK(k)`). -/
  | replyOk (k : Nat)
  /-- The transport answers the pending request with ERR, having delivered its first p bytes (R64). -/
  | replyErr (p : Nat)
  /-- The transport settles a request that a reset abandoned, delivering its first p bytes (R241). -/
  | settleAbandoned (p : Nat)
  /-- The reset input (R240). -/
  | reset
  /-- The block takes its next step, if it has one. -/
  | block
  deriving DecidableEq, Repr

/-- A buffer's bytes: (index, byte) pairs with rising indexes. An unlisted index holds NO VALUE: for TXP that is
exactly TXW[i] = 0 (R43). -/
abbrev Memory := List Host.Cell

/-- The whole state. INVENTORY.md lists every field with its width, its rule and its reset value. -/
structure State where
  /-- AVAIL_CHECK, BASE and LOG_ENABLE: parameters, which no step writes (R9, R10, R13, R46). -/
  params : Params
  /-- The sequencer (R21). -/
  seq : Seq
  /-- STATUS.LAST_OP (R25). -/
  lastOp : LastOp
  /-- STATUS.RESULT (R26). -/
  result : Bool
  /-- STATUS.RX_VALID (R27). -/
  rxValid : Bool
  /-- STATUS.RX_PRESENT (R28). -/
  rxPresent : Bool
  /-- STATUS.SUM_VALID (R29). -/
  sumValid : Bool
  /-- STATUS.ERRFRAME (R30). -/
  errFrame : Bool
  /-- STATUS.ERR (R31). -/
  err : Err
  /-- RX_LEN (R33). -/
  rxLen : Word
  /-- RX_INFO (R34). -/
  rxInfo : Word
  /-- LAST_SUM (R36). -/
  lastSum : Word
  /-- TX_WRITTEN (R37). -/
  txWritten : Word
  /-- TXP and, as "listed", TXW (R38, R43). -/
  txp : Memory
  /-- RXP (R39). Outside the live buffer its bytes mean nothing (log entry 20). -/
  rxp : Memory
  /-- TXB (R40). Outside a SEND its bytes mean nothing (log entry 21). -/
  txb : Memory
  /-- ACC (R41). -/
  acc : Byte
  /-- CUR_LEN (R42). -/
  curLen : Half
  /-- IDX (R42). RECV's byte index; SEND does not touch it (log entry 19). -/
  idx : BitVec 17
  /-- H0 (R42). -/
  h0 : Byte
  /-- H1 (R42). -/
  h1 : Byte
  /-- H2 (R42). -/
  h2 : Byte
  /-- LENF (R42). -/
  lenf : Half
  /-- PLEN (R42). -/
  plen : BitVec 17
  /-- AVS, "an unbounded non-negative integer" (R42, R45). -/
  avs : Nat
  /-- RXS (R42). -/
  rxs : Byte
  /-- WREPLY (R42, R63). -/
  wreply : Reply
  /-- RXQ, the transport's queue of received bytes, head first (R60). -/
  rxq : List Byte
  /-- TXS, the bytes the transport has delivered toward the peer, in order (R64). -/
  txs : List Byte
  /-- The request handed to the transport and not yet answered (R63). -/
  pending : Option (List Byte)
  /-- Requests that a reset abandoned: "the transport may still deliver any prefix" (R241), oldest first. -/
  abandoned : List (List Byte)
  /-- FAULTS (R43, R217), without repeats, in the order first recorded. -/
  faults : List ModelFault
  /-- The host has faulted and takes no further step (R217). -/
  hostStopped : Bool
  /-- The block has faulted and takes no further step (R217). -/
  blockStopped : Bool
  /-- What the host's last read returned (R16). -/
  readData : Word
  /-- THE MODEL'S OWN: how many free draws of STATUS bits have been made (R24). -/
  draws : Nat
  /-- THE MODEL'S OWN: the moves to come, the next one first. When the list is empty the block is next. -/
  moves : List Move
  deriving DecidableEq, Repr

/-- Why the machine stops. Model faults do not stop it: they are recorded in FAULTS (R217). -/
inductive Fault where
  /-- Raised by a host access at an address outside the window BASE to BASE + 0x3FFFF (R50): not an access to this
  block, and the spec says nothing of it. Safe: the run stops. -/
  | outsideWindow
  /-- Raised by a move the spec gives no agent: a reply with no request outstanding (R63), an ERR reply or a settlement
  that delivers more than the request holds (R64), a settlement with nothing abandoned (R241), a host-drop while BUSY is
  1 or of more bytes than RXQ holds (R66). Safe: such a run is not one of the system's. -/
  | noSuchMove
  deriving DecidableEq, Repr

/-- Why an instruction has no meaning here. -/
inductive Refusal where
  /-- An instruction of the table that the model gives no meaning yet: raised by no arm of `exec`. Safe. -/
  | notModelled (mnemonic : String)
  deriving DecidableEq, Repr

/-- The machine right after reset at the start of a run (R240, the reset table of 10_state.md section 8): FAULTS, RXQ and
TXS empty. Values the spec leaves unspecified are 0 (log entry 3); parameters are at the defaults of log entry 1. -/
def State.reset : State where
  params := { availCheck := .lowByte, window := 0, logEnable := false }
  seq := .idle
  lastOp := .none
  result := false
  rxValid := false
  rxPresent := false
  sumValid := false
  errFrame := false
  err := .none
  rxLen := 0#32
  rxInfo := 0#32
  lastSum := 0#32
  txWritten := 0#32
  txp := []
  rxp := []
  txb := []
  acc := 0#8
  curLen := 0#16
  idx := 0#17
  h0 := 0#8
  h1 := 0#8
  h2 := 0#8
  lenf := 0#16
  plen := 0#17
  avs := 0
  rxs := 0#8
  wreply := .ok 0
  rxq := []
  txs := []
  pending := none
  abandoned := []
  faults := []
  hostStopped := false
  blockStopped := false
  readData := 0#32
  draws := 0
  moves := []

end Sys2Proof.Machine
end

