-- ==== Sys2Proof/Machine/Ops.lean ====
section
/-! DEFINITION. The shared operations: buffer bytes, the record of a model fault (R217), the end of a command (R210), the
command accept and reject (R84), the checksum accumulator (R111) and the transport primitives (R16, R61 to R64). The
block has no trap entry and no trap return (R219, R220): what takes their place is `finish`, which records an error code
and ends the command. -/

namespace Sys2Proof.Machine

/-- What one step answers. -/
abbrev Result := Host.Outcome State Fault Refusal

/-! ## Buffers -/

/-- The canonical form: indexes strictly rising. -/
abbrev Memory.wf (m : Memory) : Prop := m.Pairwise (fun c d => c.1 < d.1)

/-- Every listed index is inside a buffer of `size` bytes. -/
abbrev Memory.within (m : Memory) (size : Nat) : Prop := ∀ c ∈ m, c.1 < size

/-- The byte at index a; none where nothing has been written (for TXP: where TXW[a] is 0, R43). -/
def Memory.read : Memory → Nat → Option Byte
  | [], _ => none
  | (b, v) :: m, a => if a = b then some v else Memory.read m a

/-- The buffer with byte v at index a, in the canonical form. -/
def Memory.write : Memory → Nat → Byte → Memory
  | [], a, v => [(a, v)]
  | (b, w) :: m, a, v =>
    if a < b then (a, v) :: (b, w) :: m
    else if a = b then (a, v) :: m
    else (b, w) :: Memory.write m a v

/-- The buffer with the bytes `bs` at index a and up. -/
def Memory.writeBytes : Memory → Nat → List Byte → Memory
  | m, _, [] => m
  | m, a, b :: bs => Memory.writeBytes (Memory.write m a b) (a + 1) bs

/-- The n bytes at index a and up; none if one of them has not been written. -/
def Memory.readBytes (m : Memory) (a : Nat) : Nat → Option (List Byte)
  | 0 => some []
  | n + 1 =>
    match Memory.read m a, Memory.readBytes m (a + 1) n with
    | some b, some bs => some (b :: bs)
    | _, _ => none

/-- RXP[i]: a byte nothing has written is a free value (R39, log entry 6). -/
def rxpByte (m : Memory) (i : Nat) : Byte := (Memory.read m i).getD (Config.freeRxp i)

/-- RXP[a], RXP[a+1] and so on: n bytes. -/
def rxpBytes (m : Memory) (a : Nat) : Nat → List Byte
  | 0 => []
  | n + 1 => rxpByte m a :: rxpBytes m (a + 1) n

/-! ## Commands and errors -/

/-- The block is busy exactly when `seq` is not IDLE (R22). -/
def State.busy (s : State) : Bool := !(s.seq == .idle)

/-- The command in progress: the one whose sequence `seq` stands in (R21), with the LENGTH latched in CUR_LEN (R23). -/
def State.inFlight (s : State) : Option Instr :=
  match s.seq with
  | .idle => none
  | .txAsm | .txWrite => some (.send s.curLen)
  | .csRun => some (.csum s.curLen)
  | .rxHdr | .rxValidate | .rxPay | .rxSum | .rxVerify | .rxErrf => some .recv

/-- FAULTS with reason r added: a set, so a reason stands in it once (R43, R217). -/
def addFault (fs : List ModelFault) (r : ModelFault) : List ModelFault :=
  if r ∈ fs then fs else fs ++ [r]

/-- A model fault of the host: the reason is recorded and the host takes no further step (R217). -/
def hostFault (r : ModelFault) (s : State) : State :=
  { s with faults := addFault s.faults r, hostStopped := true }

/-- A model fault of the block: the reason is recorded and the block takes no further step (R217). -/
def blockFault (r : ModelFault) (s : State) : State :=
  { s with faults := addFault s.faults r, blockStopped := true }

/-- The accept step of a command: `LAST_OP <- op`, `RESULT <- 0`, `ERR <- 0`, and the first state of its sequence
(R84). -/
def accept (op : LastOp) (first : Seq) (s : State) : State :=
  { s with lastOp := op, result := false, err := .none, seq := first }

/-- An illegal command word: `LAST_OP <- 4`, `RESULT <- 0`, `ERR <- 5`, and nothing else (R84, R216). -/
def reject (s : State) : State :=
  { s with lastOp := .rejected, result := false, err := .illegalCommand }

/-- The end of a command: its outcome and its error code are recorded and the block is IDLE again (R210, R220). -/
def finish (ok : Bool) (e : Err) (s : State) : State :=
  { s with result := ok, err := e, seq := .idle }

/-! ## The checksum accumulator -/

/-- ACC_INIT(LEN): `ACC <- LEN[7:0]` (R111). -/
def accInit (len : Half) : Byte := len.extractLsb' 0 8

/-- ACC_ADD(b): `ACC <- (ACC + b) mod 256` (R111). -/
def accAdd (acc b : Byte) : Byte := acc + b

/-- ACC after ACC_INIT(LEN) and ACC_ADD of each payload byte in increasing order (R111). -/
def accumulate (len : Half) (payload : List Byte) : Byte := payload.foldl accAdd (accInit len)

/-- A computed checksum is left in ACC and LAST_SUM, and SUM_VALID is set (R29, R36). -/
def latchSum (sum : Byte) (s : State) : State :=
  { s with acc := sum, lastSum := sum.setWidth 32, sumValid := true }

/-! ## The transport -/

/-- RxAvail(): |RXQ|, exact (R45, R62). -/
def rxAvail (s : State) : Nat := s.rxq.length

/-- TxWrite(b): one request for the whole byte sequence (R59, R63). -/
def txWriteRequest (bytes : List Byte) (s : State) : State := { s with pending := some bytes }

/-- The transport has answered the request that the block waits on (R63, R227). -/
def State.replied (s : State) : Bool := s.pending.isNone

/-- Bytes of one request reach TXS, contiguous and in order, and "before any byte of a later request" (R64): once a byte
of a request is delivered, the requests abandoned before it can deliver nothing more. -/
def deliver (bytes : List Byte) (s : State) : State :=
  { s with txs := s.txs ++ bytes, abandoned := if bytes.isEmpty then s.abandoned else [] }

end Sys2Proof.Machine
end

