-- ==== Sys2Proof/Machine/Operands.lean ====
section
/-! DEFINITION. The operand forms: the LENGTH operand and the TXP bytes of SEND and CSUM (R20, R82), the byte the decoder
takes from RXQ, and the places of the host window (R50). -/

namespace Sys2Proof.Machine

/-! ## Command operands -/

/-- The LENGTH operand of the command in progress: `length = zext_17(cmd[31:16])`, latched in CUR_LEN (R23, R82). -/
def operandLength (s : State) : Nat := s.curLen.toNat

/-- LENGTH is over 65534, so `length + 1` does not fit in 16 bits (R131, R215). -/
def lengthTooLong (s : State) : Bool := decide (Config.maxPayload < operandLength s)

/-- TXP[0] to TXP[CUR_LEN-1] (R38); none if one of them was never written, the case of UNWRITTEN_TXP (R43). -/
def operandPayload (s : State) : Option (List Byte) := Memory.readBytes s.txp 0 (operandLength s)

/-- The LEN field of the command in progress: `LEN <- zext_16(L + 1)` (R87, R130). -/
def operandLen (s : State) : Half := s.curLen + 1#16

/-! ## The host window -/

/-- The host-visible registers (10_state.md section 1). -/
inductive Reg where
  | cmd
  | status
  | rxLen
  | rxInfo
  | lastSum
  | txWritten
  deriving DecidableEq, Repr

/-- What stands at an offset of the window (R50). -/
inductive Place where
  /-- A register, at exactly its offset. -/
  | reg (r : Reg)
  /-- TXP[i]. -/
  | txp (i : Nat)
  /-- RXP[i]. -/
  | rxp (i : Nat)
  /-- "Every address in the window not listed is unmapped." -/
  | unmapped
  deriving DecidableEq, Repr

/-- The offset of each register from BASE (R50). -/
def regOffset : Reg → Nat
  | .cmd => 0x00000
  | .status => 0x00004
  | .rxLen => 0x00008
  | .rxInfo => 0x0000C
  | .lastSum => 0x00010
  | .txWritten => 0x00014

/-- The offset of TXP[0] from BASE (R50). -/
def txpOffset : Nat := 0x10000

/-- The offset of RXP[0] from BASE (R50). -/
def rxpOffset : Nat := 0x20000

/-- The address map of R50. -/
def placeOf (off : Nat) : Place :=
  if off = regOffset .cmd then .reg .cmd
  else if off = regOffset .status then .reg .status
  else if off = regOffset .rxLen then .reg .rxLen
  else if off = regOffset .rxInfo then .reg .rxInfo
  else if off = regOffset .lastSum then .reg .lastSum
  else if off = regOffset .txWritten then .reg .txWritten
  else if txpOffset ≤ off ∧ off < txpOffset + Config.maxPayload then .txp (off - txpOffset)
  else if rxpOffset ≤ off ∧ off < rxpOffset + Config.maxPayload then .rxp (off - rxpOffset)
  else .unmapped

/-- The offset of an address in the window BASE to BASE + 0x3FFFF; none outside it (R50). BASE is a multiple of the
window's size (R10), so an address is in the window exactly when its quotient by that size is BASE's, and the remainder is
its offset. -/
def windowOffset (p : Params) (addr : Nat) : Option Nat :=
  if addr / Config.windowSize = p.window then some (addr % Config.windowSize) else none

/-- The address of a register (R51). -/
def regAddr (p : Params) (r : Reg) : Nat := p.base + regOffset r

/-- The address of TXP[i] (R53). -/
def txpAddr (p : Params) (i : Nat) : Nat := p.base + (txpOffset + i)

/-- The address of RXP[i] (R54). -/
def rxpAddr (p : Params) (i : Nat) : Nat := p.base + (rxpOffset + i)

end Sys2Proof.Machine
end

