-- ==== Sys2Proof/Machine/Flags.lean ====
section
/-! DEFINITION. STATUS as a word (10_state.md section 2), and the words the commands write to the result registers. -/

namespace Sys2Proof.Machine

/-- The value of STATUS.LAST_OP (R25). -/
def lastOpCode : LastOp → BitVec 3
  | .none => 0
  | .send => 1
  | .recv => 2
  | .csum => 3
  | .rejected => 4

/-- The value of STATUS.ERR (R31, R211). -/
def errCode : Err → BitVec 4
  | .none => 0
  | .transmitIncomplete => 1
  | .checksumMismatch => 2
  | .lengthMismatch => 3
  | .txLengthError => 4
  | .illegalCommand => 5

/-- One bit of a register. -/
def bit (b : Bool) : BitVec 1 := BitVec.ofBool b

/-- STATUS while BUSY is 0 (R24 to R32): from the top, reserved [31:16], ERR, reserved [11:9], ERRFRAME, SUM_VALID,
RX_PRESENT, RX_VALID, RESULT, LAST_OP, BUSY. -/
def statusWord (s : State) : Word :=
  0#16 ++ errCode s.err ++ 0#3 ++ bit s.errFrame ++ bit s.sumValid ++ bit s.rxPresent ++ bit s.rxValid ++ bit s.result
    ++ lastOpCode s.lastOp ++ 0#1

/-- STATUS while BUSY is 1: bit 0 reads 1 and bits [31:1] are a free draw (R24). -/
def busyStatusWord (s : State) : Word := Config.freeStatus s.draws ++ 1#1

/-- RX_LEN for a header with LEN: `zext_32((LEN - 1) mod 65536)` (R33, R163). -/
def rxLenWord (len : Half) : Word := (len - 1#16).setWidth 32

/-- RX_INFO: LENF in [31:16], RXSUM in [15:8], HDR0 in [7:0] (R34). -/
def rxInfoWord (len : Half) (sum hdr0 : Byte) : Word := len ++ sum ++ hdr0

/-- RX_INFO with its RXSUM field, bits [15:8], replaced (R169). -/
def setRxSum (info : Word) (sum : Byte) : Word := info.extractLsb' 16 16 ++ sum ++ info.extractLsb' 0 8

/-- TX_WRITTEN for a reply: COUNT `k mod 131072` for OK(k), WERR alone for ERR (R37, R137). -/
def txWrittenWord : Reply → Word
  | .ok k => BitVec.ofNat 32 (k % 131072)
  | .err => 0x80000000#32

/-- The transport "reported writing length + 4 bytes" (R26, R136). -/
def wroteAll (r : Reply) (length : Nat) : Bool :=
  match r with
  | .ok k => k == length + 4
  | .err => false

/-- LengthOK(AVAIL_CHECK, AVS, LEN) of R166. -/
def lengthOk (mode : AvailCheck) (avs : Nat) (len : Half) : Bool :=
  decide (1 ≤ len.toNat) &&
    match mode with
    | .lowByte => avs == (len.extractLsb' 0 8).toNat
    | .lowByteMod => avs % 256 == (len.extractLsb' 0 8).toNat
    | .full => avs == len.toNat

end Sys2Proof.Machine
end

