-- ==== Sys2Proof/Machine/Checksum.lean ====
section
/-! DEFINITION. CSUM (40_checksum.md rule R115). -/

namespace Sys2Proof.Machine

/-- The CS_RUN step of CSUM (R115): length check, then the TXP bytes, then the sum. -/
def csumRun (s : State) : State :=
  if lengthTooLong s then finish false .txLengthError s
  else
    match operandPayload s with
    | none => blockFault .unwrittenTxp s
    | some payload => finish true .none (latchSum (accumulate (operandLen s) payload) s)

/-- CSUM length (R115). In IDLE it is the command decode's accept (R84); in CS_RUN, with this CSUM in progress, it is the
computation. While another command is in progress, issuing it is BUSY_COMMAND (R84). -/
def execCsum (length : Half) (s : State) : Result :=
  if s.seq = .idle then .next { accept .csum .csRun s with curLen := length }
  else if s.seq = .csRun ∧ s.curLen = length then .next (csumRun s)
  else .next (hostFault .busyCommand s)

end Sys2Proof.Machine
end

