-- ==== Sys2Proof/Machine/Decoder.lean ====
section
/-! DEFINITION. The frame decoder, RECV (42_decoder.md). Each definition is one state of its sequence; a step that needs a
byte of RXQ is a wait, with all state unchanged, while RXQ is empty (R61, R227). -/

namespace Sys2Proof.Machine

/-- RX_HDR: one header byte into H0, H1 or H2 by IDX; the byte in the sync position is not validated (R161, R162). -/
def recvHeader (s : State) : State :=
  match s.rxq with
  | [] => s
  | b :: q =>
    { s with
      rxq := q
      h0 := if s.idx = 0#17 then b else s.h0
      h1 := if s.idx = 1#17 then b else s.h1
      h2 := if s.idx = 2#17 then b else s.h2
      idx := s.idx + 1#17
      seq := if s.idx + 1#17 = 3#17 then .rxValidate else .rxHdr }

/-- The first half of RX_VALIDATE: LENF, RX_LEN and RX_INFO are written (R163), the previous buffer is released (R164)
and the availability is sampled (R165). The bytes of a released buffer, and any at RX_LEN.LENGTH and above, are unspecified
(R39): `rxp` keeps what was last written there (log entry 20, DESIGN CHOICE). -/
def recvMeasure (s : State) : State :=
  let len : Half := s.h1 ++ s.h2
  { s with
    lenf := len
    rxLen := rxLenWord len
    rxInfo := rxInfoWord len 0#8 s.h0
    rxPresent := false
    avs := rxAvail s }

/-- The second half of RX_VALIDATE: the length check (R166), and then the length mismatch (R167) or the allocation
(R168). -/
def recvCheck (s : State) : State :=
  if lengthOk s.params.availCheck s.avs s.lenf then
    let plen : BitVec 17 := s.lenf.setWidth 17 - 1#17
    { s with
      plen := plen
      rxPresent := true
      idx := 0#17
      seq := if plen = 0#17 then .rxSum else .rxPay }
  else finish false .lengthMismatch { s with rxValid := false, errFrame := false }

/-- RX_VALIDATE: one step (R163 to R168). -/
def recvValidate (s : State) : State := recvCheck (recvMeasure s)

/-- RX_PAY: one payload byte into RXP[IDX] (R168). -/
def recvPayload (s : State) : State :=
  match s.rxq with
  | [] => s
  | b :: q =>
    { s with
      rxq := q
      rxp := Memory.write s.rxp s.idx.toNat b
      idx := s.idx + 1#17
      seq := if s.idx + 1#17 = s.plen then .rxSum else .rxPay }

/-- RX_SUM: the checksum byte (R169). -/
def recvSum (s : State) : State :=
  match s.rxq with
  | [] => s
  | b :: q => { s with rxq := q, rxs := b, rxInfo := setRxSum s.rxInfo b, seq := .rxVerify }

/-- RX_VERIFY: the checksum over LENF and RXP[0] to RXP[PLEN-1] (R170), and the match (R171) or the mismatch with its
error frame (R172, R173). -/
def recvVerify (s : State) : State :=
  let sum := accumulate s.lenf (rxpBytes s.rxp 0 s.plen.toNat)
  let t := latchSum sum s
  if sum = s.rxs then finish true .none { t with rxValid := true, errFrame := false }
  else
    txWriteRequest Config.errorFrame
      { t with rxValid := false, result := false, err := .checksumMismatch, errFrame := true, seq := .rxErrf }

/-- RX_ERRF: the reply ends the command and is not examined (R174). -/
def recvErrf (s : State) : State :=
  if s.replied then { s with seq := .idle } else s

/-- RECV (R160). In IDLE it is the command decode's accept (R84); with a RECV in progress, it is the step of the state
`seq` stands in. While another command is in progress, issuing it is BUSY_COMMAND (R84). -/
def execRecv (s : State) : Result :=
  match s.seq with
  | .idle => .next { accept .recv .rxHdr s with idx := 0#17 }
  | .rxHdr => .next (recvHeader s)
  | .rxValidate => .next (recvValidate s)
  | .rxPay => .next (recvPayload s)
  | .rxSum => .next (recvSum s)
  | .rxVerify => .next (recvVerify s)
  | .rxErrf => .next (recvErrf s)
  | .txAsm | .txWrite | .csRun => .next (hostFault .busyCommand s)

end Sys2Proof.Machine
end

