-- ==== Sys2Proof/Machine/Encoder.lean ====
section
/-! DEFINITION. The frame encoder, SEND (41_encoder.md). -/

namespace Sys2Proof.Machine

/-- The bytes of a frame in wire order: SYNC, LEN high byte, LEN low byte, payload, SUM (R86, R132). -/
def frameBytes (len : Half) (payload : List Byte) (sum : Byte) : List Byte :=
  Config.sync :: len.extractLsb' 8 8 :: len.extractLsb' 0 8 :: (payload ++ [sum])

/-- The assembly of R132 and R133 and the request of R134: TXB[0] to TXB[L+3] are filled, then handed over. The bytes
handed over are read back from TXB, where all of them have just been written. R42 calls IDX the byte index of this assembly
too, while R130's one-step pseudocode and its list of state written name no IDX: SEND leaves `idx` as it is (log entry 19,
DEDUCED). -/
def assemble (payload : List Byte) (s : State) : State :=
  let sum := accumulate (operandLen s) payload
  let txb := Memory.writeBytes s.txb 0 (frameBytes (operandLen s) payload sum)
  let request := (Memory.readBytes txb 0 (operandLength s + 4)).getD []
  txWriteRequest request { latchSum sum s with txb := txb, seq := .txWrite }

/-- The TX_ASM step of SEND (R130): the length check of R131, then the TXP bytes, then the assembly. -/
def sendAssemble (s : State) : State :=
  if lengthTooLong s then finish false .txLengthError { s with txWritten := 0#32 }
  else
    match operandPayload s with
    | none => blockFault .unwrittenTxp s
    | some payload => assemble payload s

/-- The TX_WRITE step of SEND (R130, R135 to R137): no step until the transport has replied (R227), then one, which ends
the command. TXB's contents between commands are unspecified (R40): the ended SEND leaves its frame, and whatever stands past
it, in `txb` until a later SEND writes over them (log entry 21, DESIGN CHOICE). -/
def sendReply (s : State) : State :=
  if s.replied then
    let ok := wroteAll s.wreply (operandLength s)
    finish ok (if ok then .none else .transmitIncomplete) { s with txWritten := txWrittenWord s.wreply }
  else s

/-- SEND length (R130). In IDLE it is the command decode's accept (R84); with this SEND in progress, it is the step of
TX_ASM or TX_WRITE. While another command is in progress, issuing it is BUSY_COMMAND (R84). -/
def execSend (length : Half) (s : State) : Result :=
  if s.seq = .idle then .next { accept .send .txAsm s with curLen := length }
  else if s.seq = .txAsm ∧ s.curLen = length then .next (sendAssemble s)
  else if s.seq = .txWrite ∧ s.curLen = length then .next (sendReply s)
  else .next (hostFault .busyCommand s)

end Sys2Proof.Machine
end

