-- ==== Sys2Proof/Machine/Dispatch.lean ====
section
/-! DEFINITION. One arm per command. `exec i` is one step of the command i: its accept in IDLE (R84), and while i is the
command in progress the step of the state that `seq`, this block's program counter (R21), stands in. -/

namespace Sys2Proof.Machine

def exec (i : Instr) (s : State) : Host.Outcome State Fault Refusal :=
  match i with
  | .send length => Sys2Proof.Machine.execSend length s
  | .recv => Sys2Proof.Machine.execRecv s
  | .csum length => Sys2Proof.Machine.execCsum length s

end Sys2Proof.Machine
end

