-- ==== Sys2Proof/Machine/Window.lean ====
section
/-! DEFINITION. The host's accesses to the window (20_memory.md sections 1 and 3). The width and direction checks, which
hold in any state (R51 to R54), come before the BUSY check (R55), and that before the checks of the data (log entry 8). -/

namespace Sys2Proof.Machine

/-- The host's access ends in a model fault of the host (R217). -/
def faultHost (r : ModelFault) (s : State) : Result := .next (hostFault r s)

/-- A read that returns v to the host. -/
def returnData (v : Word) (s : State) : Result := .next { s with readData := v }

/-- A write of the word w to CMD (R84): BUSY_COMMAND while BUSY is 1; else the word is decoded and the command accepted or
the word rejected. A block that has faulted takes no further step (R217), so nothing then takes the word. -/
def writeCmd (w : Word) (s : State) : Result :=
  if s.busy then faultHost .busyCommand s
  else if s.blockStopped then .next s
  else
    match decode w with
    | .illegal _ => .next (reject s)
    | .command i => exec i s

/-- A write of one byte to TXP[i]: HAZARD while BUSY is 1, else TXP[i] <- b and TXW[i] <- 1 (R53). -/
def writeTxp (i : Nat) (b : Byte) (s : State) : Result :=
  if s.busy then faultHost .hazard s else .next { s with txp := Memory.write s.txp i b }

/-- A write of n bytes at a place of the window (R51 to R53). -/
def writePlace (p : Place) (n : Nat) (v : Word) (s : State) : Result :=
  match p with
  | .reg .cmd => if n = 4 then writeCmd v s else faultHost .hostAccess s
  | .txp i => if n = 1 then writeTxp i (v.extractLsb' 0 8) s else faultHost .hostAccess s
  | .reg .status | .reg .rxLen | .reg .rxInfo | .reg .lastSum | .reg .txWritten => faultHost .hostAccess s
  | .rxp _ | .unmapped => faultHost .hostAccess s

/-- A read of STATUS, "allowed at any time" (R24, R55). -/
def readStatus (s : State) : Result :=
  if s.busy then returnData (busyStatusWord s) { s with draws := s.draws + 1 } else returnData (statusWord s) s

/-- A read of RX_LEN, RX_INFO or TX_WRITTEN: HAZARD while BUSY is 1 (R55). -/
def readResult (v : Word) (s : State) : Result :=
  if s.busy then faultHost .hazard s else returnData v s

/-- A read of LAST_SUM: HAZARD while BUSY is 1 (R55), LAST_SUM_UNWRITTEN while SUM_VALID is 0 (R36). -/
def readLastSum (s : State) : Result :=
  if s.busy then faultHost .hazard s
  else if s.sumValid then returnData s.lastSum s
  else faultHost .lastSumUnwritten s

/-- A read of TXP[i]: HAZARD while BUSY is 1, UNWRITTEN_TXP where TXW[i] is 0 (R53). -/
def readTxp (i : Nat) (s : State) : Result :=
  if s.busy then faultHost .hazard s
  else
    match Memory.read s.txp i with
    | none => faultHost .unwrittenTxp s
    | some b => returnData (b.setWidth 32) s

/-- RX_LEN.LENGTH (R33). -/
def rxLength (s : State) : Nat := (s.rxLen.extractLsb' 0 16).toNat

/-- A read of RXP[i]: HAZARD while BUSY is 1, RXP_RANGE outside the live buffer (R54). -/
def readRxp (i : Nat) (s : State) : Result :=
  if s.busy then faultHost .hazard s
  else if s.rxPresent ∧ i < rxLength s then returnData ((rxpByte s.rxp i).setWidth 32) s
  else faultHost .rxpRange s

/-- A read of n bytes at a place of the window (R51 to R55). -/
def readPlace (p : Place) (n : Nat) (s : State) : Result :=
  match p with
  | .reg .cmd => faultHost .hostAccess s
  | .reg .status => if n = 4 then readStatus s else faultHost .hostAccess s
  | .reg .rxLen => if n = 4 then readResult s.rxLen s else faultHost .hostAccess s
  | .reg .rxInfo => if n = 4 then readResult s.rxInfo s else faultHost .hostAccess s
  | .reg .lastSum => if n = 4 then readLastSum s else faultHost .hostAccess s
  | .reg .txWritten => if n = 4 then readResult s.txWritten s else faultHost .hostAccess s
  | .txp i => if n = 1 then readTxp i s else faultHost .hostAccess s
  | .rxp i => if n = 1 then readRxp i s else faultHost .hostAccess s
  | .unmapped => faultHost .hostAccess s

/-- `MemWrite(addr, n, v)` by the host (R16). An address outside the window is no access to this block. -/
def hostWrite (addr n : Nat) (v : Word) (s : State) : Result :=
  match windowOffset s.params addr with
  | none => .fault .outsideWindow
  | some off => writePlace (placeOf off) n v s

/-- `MemRead(addr, n)` by the host (R16). -/
def hostRead (addr n : Nat) (s : State) : Result :=
  match windowOffset s.params addr with
  | none => .fault .outsideWindow
  | some off => readPlace (placeOf off) n s

end Sys2Proof.Machine
end

