-- ==== Sys2Proof/Machine/Environment.lean ====
section
/-! DEFINITION. The moves of the other agents (R7), the reset input (R240 to R242), and the block's own turn. -/

namespace Sys2Proof.Machine

/-- The host removes n bytes from the head of RXQ while BUSY is 0 (R66). "While BUSY is 1, no agent but the decoder
removes bytes from RXQ", so there is then no such move. -/
def hostDrop (n : Nat) (s : State) : Result :=
  if s.busy ∨ s.rxq.length < n then .fault .noSuchMove else .next { s with rxq := s.rxq.drop n }

/-- The peer appends bytes at the tail of RXQ, "at any step and in any amount" (R60). -/
def peerAppend (bytes : List Byte) (s : State) : Result := .next { s with rxq := s.rxq ++ bytes }

/-- The transport answers the pending request with r, its first `count` bytes having been delivered (R63, R64). -/
def answer (r : Reply) (count : Nat) (request : List Byte) (s : State) : State :=
  { deliver (request.take count) s with pending := none, wreply := r }

/-- The reply OK(k): `b[0] to b[min(k, |b|) - 1]` reach TXS (R64). -/
def replyOk (k : Nat) (s : State) : Result :=
  match s.pending with
  | none => .fault .noSuchMove
  | some request => .next (answer (.ok k) k request s)

/-- The reply ERR: `b[0] to b[p - 1]` reach TXS, for some p from 0 to |b| that the transport chooses (R64). -/
def replyErr (p : Nat) (s : State) : Result :=
  match s.pending with
  | none => .fault .noSuchMove
  | some request => if request.length < p then .fault .noSuchMove else .next (answer .err p request s)

/-- The transport settles the oldest request that a reset abandoned: it delivers the first p bytes of it, and "its reply,
if any, is discarded" (R241). -/
def settleAbandoned (p : Nat) (s : State) : Result :=
  match s.abandoned with
  | [] => .fault .noSuchMove
  | request :: rest =>
    if request.length < p then .fault .noSuchMove
    else .next { s with txs := s.txs ++ request.take p, abandoned := rest }

/-- The reset input: every piece of the block's state takes its reset value (R240), the command in progress is aborted
and its request is not withdrawn (R241), RXQ and TXS are not changed (R242), and FAULTS is not cleared, so an agent that
has faulted stays stopped (R217, log entry 7). -/
def resetBlock (s : State) : State :=
  { State.reset with
    params := s.params
    rxq := s.rxq
    txs := s.txs
    abandoned := s.abandoned ++ s.pending.toList
    faults := s.faults
    hostStopped := s.hostStopped
    blockStopped := s.blockStopped
    readData := s.readData
    draws := s.draws
    moves := s.moves }

/-- The block's turn: the next step of the command in progress; none in IDLE (R227) or once the block has faulted
(R217). -/
def blockTurn (s : State) : Result :=
  if s.blockStopped then .next s
  else
    match s.inFlight with
    | none => .next s
    | some i => exec i s

/-- A move of the host, which a host that has faulted does not make (R217). -/
def byHost (move : State → Result) (s : State) : Result := if s.hostStopped then .next s else move s

/-- The effect of one move. -/
def takeMove (m : Move) (s : State) : Result :=
  match m with
  | .hostWrite addr n v => byHost (hostWrite addr n v) s
  | .hostRead addr n => byHost (hostRead addr n) s
  | .hostDrop n => byHost (hostDrop n) s
  | .peerAppend bytes => peerAppend bytes s
  | .replyOk k => replyOk k s
  | .replyErr p => replyErr p s
  | .settleAbandoned p => settleAbandoned p s
  | .reset => .next (resetBlock s)
  | .block => blockTurn s

/-- One step of the system: the next move, and the block's turn when no move is listed. -/
def nextMove (s : State) : Result :=
  match s.moves with
  | [] => blockTurn s
  | m :: rest => takeMove m { s with moves := rest }

/-- The host's write of a command word is the next move, and nothing stands in its way: the block is IDLE and no agent
has been stopped. This is how a command comes to run (R23, R84, log entry 4). -/
def placeCommand (w : Word) (s : State) : State :=
  { s with
    moves := .hostWrite (regAddr s.params .cmd) 4 w :: s.moves
    seq := .idle
    hostStopped := false
    blockStopped := false }

end Sys2Proof.Machine
end

