-- ==== Sys2Proof/Machine/Step.lean ====
section
/-! DEFINITION. The step of the whole system (R7): the next move of the list, or the block's turn. -/

namespace Sys2Proof.Machine

/-- One step. -/
def step (s : State) : Host.Outcome State Fault Refusal := nextMove s

/-- s with the command word w, its bits above `nbits` zero, as the host's next write to CMD. -/
def State.withFetchWord (s : State) (nbits w : Nat) : State := placeCommand (tableWord nbits w) s

end Sys2Proof.Machine
end

