-- ==== Sys2Proof/Safety.lean ====
section
/-! DEFINITION. The words claims are made in: the checksum law and the wire frame as R110 and R86 write them, the
invariant of the block, and the usage rules of a host that meets no model fault (R243 to R247). -/

namespace Sys2Proof.Machine

/-! ## The wire -/

/-- `checksum(length, p) = (length + 1 + sum(p[0 .. length-1])) mod 256` (R110). -/
def checksum (payload : List Byte) : Byte :=
  BitVec.ofNat 8 ((payload.length + 1 + (payload.map BitVec.toNat).sum) % 256)

/-- The frame of a payload: SYNC, LEN = length + 1 high byte first, the payload, SUM (R86). -/
def frameOf (payload : List Byte) : List Byte :=
  [0xE0#8, BitVec.ofNat 8 ((payload.length + 1) / 256), BitVec.ofNat 8 ((payload.length + 1) % 256)]
    ++ payload ++ [checksum payload]

/-- The buffer's first bytes are the bytes of `payload`. -/
def Memory.holds (m : Memory) (payload : List Byte) : Prop :=
  ∀ i < payload.length, Memory.read m i = payload[i]?

/-! ## The invariant -/

/-- Every buffer is in canonical form and inside its size (R38 to R40). -/
def State.BuffersOk (s : State) : Prop :=
  (s.txp.wf ∧ s.txp.within Config.maxPayload) ∧ (s.rxp.wf ∧ s.rxp.within Config.maxPayload) ∧
    (s.txb.wf ∧ s.txb.within Config.txbSize)

/-- The register bits that read 0 are 0: RX_LEN [31:16] (R33), LAST_SUM [31:8] (R36), TX_WRITTEN [30:17], and COUNT when
WERR is 1 (R37). -/
def State.ReservedClear (s : State) : Prop :=
  s.rxLen.extractLsb' 16 16 = 0#16 ∧ s.lastSum.extractLsb' 8 24 = 0#24 ∧ s.txWritten.extractLsb' 17 14 = 0#14 ∧
    (s.txWritten.extractLsb' 31 1 = 1#1 → s.txWritten.extractLsb' 0 17 = 0#17)

/-- A payload is being received: the header's LEN is at least 1, PLEN and RX_LEN are LEN - 1, and the buffer is present
with its first `count` bytes written (R168). -/
def State.Receiving (s : State) (count : Nat) : Prop :=
  1 ≤ s.lenf.toNat ∧ s.plen.toNat + 1 = s.lenf.toNat ∧ s.rxLen.toNat + 1 = s.lenf.toNat ∧ s.rxPresent = true ∧
    ∀ i < count, (Memory.read s.rxp i).isSome = true

/-- What each state of the sequencer guarantees of the latches (R21, R42) and of the request outstanding (R63). -/
def State.SequencerOk (s : State) : Prop :=
  match s.seq with
  | .idle => s.pending = none
  | .txAsm => s.pending = none ∧ s.lastOp = .send
  | .txWrite =>
    s.lastOp = .send ∧ s.curLen.toNat ≤ Config.maxPayload ∧ ∀ b, s.pending = some b → b.length = s.curLen.toNat + 4
  | .csRun => s.pending = none ∧ s.lastOp = .csum
  | .rxHdr => s.pending = none ∧ s.lastOp = .recv ∧ s.idx.toNat < 3
  | .rxValidate => s.pending = none ∧ s.lastOp = .recv
  | .rxPay => s.pending = none ∧ s.lastOp = .recv ∧ s.idx.toNat < s.plen.toNat ∧ s.Receiving s.idx.toNat
  | .rxSum => s.pending = none ∧ s.lastOp = .recv ∧ s.Receiving s.plen.toNat
  | .rxVerify => s.pending = none ∧ s.lastOp = .recv ∧ s.Receiving s.plen.toNat
  | .rxErrf =>
    s.lastOp = .recv ∧ s.rxValid = false ∧ s.err = .checksumMismatch ∧ s.errFrame = true ∧
      ∀ b, s.pending = some b → b = Config.errorFrame

/-- How the STATUS fields go together (R25 to R31, R175, R210): an error goes with RESULT 0; NONE stands only before the
first command; a valid frame has a buffer; BUSY goes with RESULT 0 (the accept step wrote it); a RECV that is over has
RESULT equal to RX_VALID. -/
def State.StatusOk (s : State) : Prop :=
  (s.err ≠ .none → s.result = false) ∧
    (s.lastOp = .none → s.seq = .idle ∧ s.result = false ∧ s.err = .none) ∧
    (s.lastOp = .rejected → s.seq = .idle ∧ s.err = .illegalCommand) ∧
    (s.rxValid = true → s.rxPresent = true) ∧
    (s.seq ≠ .idle → s.result = false) ∧
    (s.seq = .idle → s.lastOp = .recv → s.result = s.rxValid)

/-- A frame the host may read has all its bytes: while a buffer is present and RX_PAY is not filling it, the bytes RXP[0] to
RXP[RX_LEN.LENGTH - 1] have been written (R39, R168), so a read of RXP never meets a byte that has no value. -/
def State.FrameOk (s : State) : Prop :=
  s.seq ≠ .rxPay → s.rxPresent = true → ∀ i < s.rxLen.toNat, (Memory.read s.rxp i).isSome = true

/-- What FAULTS and the stopped agents guarantee (R43, R217): no reason stands twice, and an agent that has stopped has
recorded why. -/
def State.FaultsOk (s : State) : Prop :=
  s.faults.Nodup ∧ (s.hostStopped = true → s.faults ≠ []) ∧ (s.blockStopped = true → .unwrittenTxp ∈ s.faults)

/-- The invariant of the block. -/
structure State.Inv (s : State) : Prop where
  buffers : s.BuffersOk
  reserved : s.ReservedClear
  sequencer : s.SequencerOk
  status : s.StatusOk
  frame : s.FrameOk
  faults : s.FaultsOk

/-! ## The usage rules of the host -/

/-- The TXP bytes a command word asks for have been written (R243). -/
def payloadReady (w : Word) (s : State) : Prop :=
  match decode w with
  | .command (.send length) | .command (.csum length) =>
    length.toNat ≤ Config.maxPayload → ∀ i < length.toNat, (Memory.read s.txp i).isSome = true
  | .command .recv | .illegal _ => True

/-- A write that keeps the usage rules: CMD and TXP only, whole, while BUSY is 0 (R51 to R53, R243, R245, R246). -/
def writeAllowed (p : Place) (n : Nat) (w : Word) (s : State) : Prop :=
  match p with
  | .reg .cmd => n = 4 ∧ s.seq = .idle ∧ payloadReady w s
  | .txp _ => n = 1 ∧ s.seq = .idle
  | .reg .status | .reg .rxLen | .reg .rxInfo | .reg .lastSum | .reg .txWritten => False
  | .rxp _ | .unmapped => False

/-- A read that keeps the usage rules: of what has a value, whole, and all but STATUS while BUSY is 0 (R51 to R55,
R247). -/
def readAllowed (p : Place) (n : Nat) (s : State) : Prop :=
  match p with
  | .reg .cmd | .unmapped => False
  | .reg .status => n = 4
  | .reg .rxLen | .reg .rxInfo | .reg .txWritten => n = 4 ∧ s.seq = .idle
  | .reg .lastSum => n = 4 ∧ s.seq = .idle ∧ s.sumValid = true
  | .txp i => n = 1 ∧ s.seq = .idle ∧ (Memory.read s.txp i).isSome = true
  | .rxp i => n = 1 ∧ s.seq = .idle ∧ s.rxPresent = true ∧ i < rxLength s

/-- The moves that are the host's (R7). -/
def Move.ofHost : Move → Bool
  | .hostWrite _ _ _ | .hostRead _ _ | .hostDrop _ => true
  | .peerAppend _ | .replyOk _ | .replyErr _ | .settleAbandoned _ | .reset | .block => false

/-- The move keeps the usage rules of the host; a move of another agent has none to keep. -/
def keepsUsageRules (m : Move) (s : State) : Prop :=
  match m with
  | .hostWrite addr n w => ∀ off, windowOffset s.params addr = some off → writeAllowed (placeOf off) n w s
  | .hostRead addr n => ∀ off, windowOffset s.params addr = some off → readAllowed (placeOf off) n s
  | .hostDrop _ | .peerAppend _ | .replyOk _ | .replyErr _ | .settleAbandoned _ | .reset | .block => True

/-- No model fault has been recorded, and none is on its way: a SEND or CSUM in progress has the bytes it will read. -/
def State.FaultFree (s : State) : Prop :=
  s.faults = [] ∧ s.hostStopped = false ∧ s.blockStopped = false ∧
    ((s.seq = .txAsm ∨ s.seq = .csRun) → s.curLen.toNat ≤ Config.maxPayload →
      ∀ i < s.curLen.toNat, (Memory.read s.txp i).isSome = true)

/-- The states `seq` may hold after a step that is not a reset (R21): "No command ever returns to an earlier state of its
own sequence". -/
def seqSuccessors : Seq → List Seq
  | .idle => [.idle, .txAsm, .csRun, .rxHdr]
  | .txAsm => [.txAsm, .txWrite, .idle]
  | .txWrite => [.txWrite, .idle]
  | .csRun => [.csRun, .idle]
  | .rxHdr => [.rxHdr, .rxValidate]
  | .rxValidate => [.rxValidate, .rxPay, .rxSum, .idle]
  | .rxPay => [.rxPay, .rxSum]
  | .rxSum => [.rxSum, .rxVerify]
  | .rxVerify => [.rxVerify, .rxErrf, .idle]
  | .rxErrf => [.rxErrf, .idle]

/-- An outcome with f done to its next state; a fault or a refusal as it is. -/
def mapNext (f : State → State) (r : Result) : Result :=
  match r with
  | .next t => .next (f t)
  | .fault e => .fault e
  | .refused e => .refused e

end Sys2Proof.Machine
end

