-- ==== Sys2Proof/Certificates/Slice0/Obligations.lean ====
section
/-! DEFINITION. The statements for the provers. Each docstring names the rule of spec/ it formalises. No statement rests on a
reset value or a parameter default the model chose; where a free value is involved, the statement holds for every value of
it. Where a statement says of a whole next state, or of every byte of a buffer, that nothing else changes, RXP outside the live
buffer, TXB outside a SEND, and IDX in a SEND keep their values too: the spec leaves those unspecified and no rule reads them
(log entries 19 to 21). TXS keeps its value while a request is outstanding: that the bytes of a request reach it in the step of
the reply or of the settlement, and in no other, is the model's choice (log entry 12). -/

open Sys2Proof Sys2Proof.Machine

/-! ## Command words -/

/-- Words the spec writes out, read as the spec says (R85 and the command vectors of 95_test_vectors.md family 4). -/
def Obligations.SpecWordsDecode : Prop :=
  decode 0x00010001#32 = .command (.send 1#16) ∧ decode 0x00000002#32 = .command .recv ∧
    decode 0x00020003#32 = .command (.csum 2#16) ∧ decode 0xFFFE0001#32 = .command (.send 65534#16) ∧
    commandOf (decode 0x00000000#32) = none ∧ commandOf (decode 0x0000000F#32) = none ∧
    commandOf (decode 0x00000004#32) = none ∧ commandOf (decode 0x00000011#32) = none ∧
    commandOf (decode 0x00018001#32) = none ∧ commandOf (decode 0x00010002#32) = none ∧
    commandOf (decode 0xFFFF0002#32) = none

/-- R85: the decoder agrees with the table of masks and matches on every word, LENGTH is bits [31:16] (R82), and "A word
that matches no row is illegal". -/
def Obligations.DecodeFollowsMaskAndMatch : Prop :=
  ∀ w : Word,
    (w &&& 0x0000FFFF#32 = 0x00000001#32 → decode w = .command (.send (w.extractLsb' 16 16))) ∧
    (w &&& 0xFFFFFFFF#32 = 0x00000002#32 → decode w = .command .recv) ∧
    (w &&& 0x0000FFFF#32 = 0x00000003#32 → decode w = .command (.csum (w.extractLsb' 16 16))) ∧
    (w &&& 0x0000FFFF#32 ≠ 0x00000001#32 → w &&& 0xFFFFFFFF#32 ≠ 0x00000002#32 →
      w &&& 0x0000FFFF#32 ≠ 0x00000003#32 → ∃ why, decode w = .illegal why)

/-- R83 and R216: the definition of an illegal word, read off the number the word is (OP is its last hexadecimal digit, RSV
the next three, LENGTH the upper half, R80), and what a write of one to CMD does while BUSY is 0: LAST_OP, RESULT and ERR,
and nothing else. -/
def Obligations.IllegalWordsAreRejected : Prop :=
  ∀ w : Word,
    let illegal : Prop := (w.toNat % 16 ≠ 1 ∧ w.toNat % 16 ≠ 2 ∧ w.toNat % 16 ≠ 3) ∨ w.toNat / 16 % 4096 ≠ 0 ∨
      (w.toNat % 16 = 2 ∧ w.toNat / 65536 ≠ 0)
    ((∃ why, decode w = .illegal why) ↔ illegal) ∧
      ∀ (s : State) (rest : List Move), s.seq = .idle → s.hostStopped = false → s.blockStopped = false →
        s.moves = .hostWrite (regAddr s.params .cmd) 4 w :: rest → illegal →
        step s = .next { s with moves := rest, lastOp := .rejected, result := false, err := .illegalCommand }

/-- Decode and encode agree, both ways: no bit of a LENGTH operand is dropped, and each legal word has one meaning. -/
def Obligations.DecodeAndEncodeAgree : Prop :=
  (∀ i : Instr, decode (encode i) = .command i) ∧ ∀ (w : Word) (i : Instr), decode w = .command i → encode i = w

/-- A host write of a command word to CMD while BUSY is 0 is one step, `exec` of the decoded command; and the block's turn
is one step, `exec` of the command in progress. The per-command statements reach a run through this one. -/
def Obligations.StepRunsTheDecodedCommand : Prop :=
  (∀ (s : State) (w : Word) (i : Instr) (rest : List Move),
    s.seq = .idle → s.hostStopped = false → s.blockStopped = false →
    s.moves = .hostWrite (regAddr s.params .cmd) 4 w :: rest → decode w = .command i →
    step s = exec i { s with moves := rest }) ∧
  (∀ (s : State) (i : Instr) (rest : List Move),
    s.inFlight = some i → s.blockStopped = false → s.moves = .block :: rest →
    step s = exec i { s with moves := rest }) ∧
  (∀ (s : State) (i : Instr),
    s.inFlight = some i → s.blockStopped = false → s.moves = [] → step s = exec i s) ∧
  ∀ (s : State) (nbits w : Nat) (i : Instr), decodeTableWord nbits w = some i →
    step (s.withFetchWord nbits w) = exec i { s with seq := .idle, hostStopped := false, blockStopped := false }

/-- R84: the command decode whole, as the step a host write of a word to CMD takes. While BUSY is 1 it is the model fault
BUSY_COMMAND (R245), whatever the word and whether or not the block has met UNWRITTEN_TXP, and changes no other state; FAULTS is
the set with the reason added. While BUSY is 0 a block that has not faulted decodes the word. -/
def Obligations.CommandDecode : Prop :=
  ∀ (s : State) (w : Word) (rest : List Move),
    s.hostStopped = false → s.moves = .hostWrite (regAddr s.params .cmd) 4 w :: rest →
    let op := w.toNat % 16
    let rsv := w.toNat / 16 % 4096
    let len := w.toNat / 65536
    (s.seq ≠ .idle → ∃ fs, (∀ r, r ∈ fs ↔ r = .busyCommand ∨ r ∈ s.faults) ∧
      step s = .next { s with moves := rest, faults := fs, hostStopped := true }) ∧
    (s.seq = .idle → s.blockStopped = false →
      if rsv ≠ 0 ∨ (op ≠ 1 ∧ op ≠ 2 ∧ op ≠ 3) ∨ (op = 2 ∧ len ≠ 0) then
        step s = .next { s with moves := rest, lastOp := .rejected, result := false, err := .illegalCommand }
      else if op = 1 then
        step s = .next
          { s with moves := rest, lastOp := .send, result := false, err := .none, curLen := BitVec.ofNat 16 len,
                   seq := .txAsm }
      else if op = 2 then
        step s = .next
          { s with moves := rest, lastOp := .recv, result := false, err := .none, idx := 0#17, seq := .rxHdr }
      else
        step s = .next
          { s with moves := rest, lastOp := .csum, result := false, err := .none, curLen := BitVec.ofNat 16 len,
                   seq := .csRun })

/-- Each command is accepted by an idle block: the accept of R84, as `exec` answers it. -/
def Obligations.IdleBlockAcceptsEveryCommand : Prop :=
  ∀ s : State, s.seq = .idle →
    (∀ length, exec (.send length) s = .next
      { s with lastOp := .send, result := false, err := .none, curLen := length, seq := .txAsm }) ∧
    exec .recv s = .next { s with lastOp := .recv, result := false, err := .none, idx := 0#17, seq := .rxHdr } ∧
    ∀ length, exec (.csum length) s = .next
      { s with lastOp := .csum, result := false, err := .none, curLen := length, seq := .csRun }

/-- R210's "No command traps or aborts": every command answers a next state in every state of the block. -/
def Obligations.NoCommandTraps : Prop := ∀ (i : Instr) (s : State), ∃ t, exec i s = .next t

/-! ## The checksum -/

/-- R111: ACC_INIT and ACC_ADD, and that the running sum modulo 256 gives the checksum of R110, whatever the payload. -/
def Obligations.AccumulatorComputesTheChecksum : Prop :=
  (∀ len : Half, (accInit len).toNat = len.toNat % 256) ∧
    (∀ a b : Byte, (accAdd a b).toNat = (a.toNat + b.toNat) % 256) ∧
    (∀ len : Half, accumulate len [] = accInit len) ∧
    (∀ (len : Half) (p : List Byte) (b : Byte), accumulate len (p ++ [b]) = accAdd (accumulate len p) b) ∧
    ∀ (len : Half) (p : List Byte), len.toNat = p.length + 1 →
      (accumulate len p).toNat = (p.length + 1 + (p.map BitVec.toNat).sum) % 256

/-- What the checksum sees and does not see: of LEN only the low byte (R113), every change of exactly one payload byte
(R114), and not every change of two. -/
def Obligations.ChecksumSeesEverySingleByteChange : Prop :=
  (∀ (len len' : Half) (p : List Byte), len.toNat % 256 = len'.toNat % 256 → accumulate len p = accumulate len' p) ∧
    (∀ (p q : List Byte) (b c : Byte), b ≠ c → checksum (p ++ b :: q) ≠ checksum (p ++ c :: q)) ∧
    ∃ p q : List Byte, p ≠ q ∧ p.length = q.length ∧ checksum p = checksum q

/-- R115: CSUM's encoding, the LENGTH it latches, and its one step in CS_RUN, in all three cases: LENGTH 65535, a byte to be
summed never written, and the computation, whose result R110's sum gives. -/
def Obligations.CsumComputesOrReports : Prop :=
  (∀ w : Word, w &&& 0x0000FFFF#32 = 0x00000003#32 → decode w = .command (.csum (w.extractLsb' 16 16))) ∧
  (∀ (s : State) (length : Half), s.seq = .idle →
    exec (.csum length) s = .next
      { s with lastOp := .csum, result := false, err := .none, curLen := length, seq := .csRun }) ∧
  (∀ p : List Byte, (checksum p).toNat = (p.length + 1 + (p.map BitVec.toNat).sum) % 256) ∧
  ∀ s : State, s.seq = .csRun →
    (s.curLen.toNat = 65535 →
      exec (.csum s.curLen) s = .next { s with result := false, err := .txLengthError, seq := .idle }) ∧
    (s.curLen.toNat ≤ 65534 → (∃ i < s.curLen.toNat, Memory.read s.txp i = none) →
      ∃ fs, (∀ r, r ∈ fs ↔ r = .unwrittenTxp ∨ r ∈ s.faults) ∧
        exec (.csum s.curLen) s = .next { s with faults := fs, blockStopped := true }) ∧
    ∀ p : List Byte, p.length = s.curLen.toNat → s.curLen.toNat ≤ 65534 → s.txp.holds p →
      exec (.csum s.curLen) s = .next
        { s with acc := checksum p, lastSum := (checksum p).setWidth 32, sumValid := true, result := true,
                 err := .none, seq := .idle }

/-- CSUM changes nothing but what R115 lists, at its accept and at its computation; a model fault (R217) changes FAULTS and
stops the faulting agent. Every byte of every buffer is as before. -/
def Obligations.CsumFrame : Prop :=
  ∀ (length : Half) (s t : State), exec (.csum length) s = .next t →
    t = { s with
          seq := t.seq, lastOp := t.lastOp, result := t.result, err := t.err, curLen := t.curLen, acc := t.acc,
          lastSum := t.lastSum, sumValid := t.sumValid, faults := t.faults, hostStopped := t.hostStopped,
          blockStopped := t.blockStopped } ∧
    (s.seq = .idle → t.acc = s.acc ∧ t.lastSum = s.lastSum ∧ t.sumValid = s.sumValid ∧ t.faults = s.faults) ∧
    (s.seq ≠ .idle → t.lastOp = s.lastOp ∧ t.curLen = s.curLen) ∧
    ∀ a, Memory.read t.txp a = Memory.read s.txp a ∧ Memory.read t.rxp a = Memory.read s.rxp a ∧
      Memory.read t.txb a = Memory.read s.txb a

/-! ## SEND -/

/-- R131 to R134: the TX_ASM step of SEND. LENGTH 65535 ends it at once; otherwise TXB[0] to TXB[L+3] are the frame, the
checksum goes to LAST_SUM, and exactly those L + 4 bytes are the one request. Every other byte of TXB is as before. -/
def Obligations.SendAssemblesTheFrame : Prop :=
  ∀ s : State, s.seq = .txAsm →
    (s.curLen.toNat = 65535 →
      exec (.send s.curLen) s = .next
        { s with txWritten := 0#32, result := false, err := .txLengthError, seq := .idle }) ∧
    ∀ p : List Byte, p.length = s.curLen.toNat → s.curLen.toNat ≤ 65534 → s.txp.holds p →
      ∃ txb, exec (.send s.curLen) s = .next
          { s with txb := txb, acc := checksum p, lastSum := (checksum p).setWidth 32, sumValid := true,
                   pending := some (frameOf p), seq := .txWrite } ∧
        (∀ i < p.length + 4, Memory.read txb i = (frameOf p)[i]?) ∧
        ∀ a, p.length + 4 ≤ a → Memory.read txb a = Memory.read s.txb a

/-- The model fault UNWRITTEN_TXP of SEND (R130, R217, R218): no request is made, nothing is assembled, and the block takes
no further step. -/
def Obligations.SendOfUnwrittenBytesFaults : Prop :=
  ∀ s : State, s.seq = .txAsm → s.curLen.toNat ≤ 65534 → (∃ i < s.curLen.toNat, Memory.read s.txp i = none) →
    ∃ fs, (∀ r, r ∈ fs ↔ r = .unwrittenTxp ∨ r ∈ s.faults) ∧
      exec (.send s.curLen) s = .next { s with faults := fs, blockStopped := true }

/-- R136 and R137: the TX_WRITE step, once the transport has replied. RESULT is 1 exactly for OK(L + 4). -/
def Obligations.SendReportsTheReply : Prop :=
  ∀ s : State, s.seq = .txWrite → s.pending = none →
    (∀ k, s.wreply = .ok k →
      exec (.send s.curLen) s = .next
        { s with txWritten := BitVec.ofNat 32 (k % 131072), result := decide (k = s.curLen.toNat + 4),
                 err := if k = s.curLen.toNat + 4 then .none else .transmitIncomplete, seq := .idle }) ∧
    (s.wreply = .err →
      exec (.send s.curLen) s = .next
        { s with txWritten := 0x80000000#32, result := false, err := .transmitIncomplete, seq := .idle }) ∧
    ∀ t, exec (.send s.curLen) s = .next t → t.result = true →
      (t.txWritten.extractLsb' 0 17).toNat = s.curLen.toNat + 4

/-- R135: in TX_WRITE the encoder has no step until the transport replies, and its one step then ends the SEND, whatever
the reply, with no second request. -/
def Obligations.SendWaitsAndNeverRetries : Prop :=
  ∀ s : State, s.seq = .txWrite →
    (∀ b, s.pending = some b → exec (.send s.curLen) s = .next s) ∧
    (s.pending = none → ∃ t, exec (.send s.curLen) s = .next t ∧ t.seq = .idle ∧ t.pending = none)

/-- SEND leaves the ReceivedFrame and everything else it does not write untouched (R130, R139). It stores to TXB only, to
the L + 4 bytes from TXB[0], and only in the step that assembles. -/
def Obligations.SendFrame : Prop :=
  ∀ (length : Half) (s t : State), exec (.send length) s = .next t →
    t = { s with
          seq := t.seq, lastOp := t.lastOp, result := t.result, err := t.err, curLen := t.curLen, txb := t.txb,
          acc := t.acc, lastSum := t.lastSum, sumValid := t.sumValid, txWritten := t.txWritten, pending := t.pending,
          faults := t.faults, hostStopped := t.hostStopped, blockStopped := t.blockStopped } ∧
    (∀ a, Memory.read t.txp a = Memory.read s.txp a ∧ Memory.read t.rxp a = Memory.read s.rxp a) ∧
    (∀ a, operandLength s + 4 ≤ a → Memory.read t.txb a = Memory.read s.txb a) ∧
    (s.seq ≠ .txAsm →
      (∀ a, Memory.read t.txb a = Memory.read s.txb a) ∧ t.acc = s.acc ∧ t.lastSum = s.lastSum ∧
        t.sumValid = s.sumValid ∧ t.pending = s.pending) ∧
    (s.seq ≠ .idle → t.lastOp = s.lastOp ∧ t.curLen = s.curLen)

/-- The whole SEND, from the host's write to its end, for any payload the LEN field can carry and any reply m: OK(k), or ERR
after the first k bytes. TXS gains exactly the part of the frame that the transport delivered, RESULT says whether the reply was
OK(L + 4), TX_WRITTEN is k mod 131072 for OK(k) and WERR alone for ERR, and TXP and the ReceivedFrame are as before (R130 to
R140). -/
def Obligations.SendPutsTheFrameOnTheWire : Prop :=
  ∀ (s : State) (p : List Byte) (k : Nat) (m : Move) (rest : List Move),
    s.seq = .idle → s.hostStopped = false → s.blockStopped = false → p.length ≤ 65534 → s.txp.holds p →
    m = .replyOk k ∨ (m = .replyErr k ∧ k ≤ p.length + 4) →
    s.moves = .hostWrite (regAddr s.params .cmd) 4 (BitVec.ofNat 32 (p.length * 65536 + 1)) :: .block :: m :: .block ::
      rest →
    ∃ t : State, core.run 4 s = .next t ∧ t.seq = .idle ∧ t.txs = s.txs ++ (frameOf p).take k ∧
      t.result = decide (m = .replyOk (p.length + 4)) ∧
      t.err = (if m = .replyOk (p.length + 4) then .none else .transmitIncomplete) ∧ t.lastOp = .send ∧
      t.txWritten = (if m = .replyOk k then BitVec.ofNat 32 (k % 131072) else 0x80000000#32) ∧
      t.lastSum = (checksum p).setWidth 32 ∧ t.sumValid = true ∧ t.txp = s.txp ∧ t.rxq = s.rxq ∧ t.rxp = s.rxp ∧
      t.rxLen = s.rxLen ∧ t.rxInfo = s.rxInfo ∧ t.rxValid = s.rxValid ∧ t.rxPresent = s.rxPresent ∧
      t.errFrame = s.errFrame ∧ t.faults = s.faults ∧ t.moves = rest

/-! ## RECV -/

/-- R161: one header byte per step, into H0, H1 and H2 in arrival order, with no look at its value; three end the
header, and an empty RXQ blocks. -/
def Obligations.RecvReadsTheHeader : Prop :=
  (∀ s : State, s.seq = .rxHdr → s.rxq = [] → exec .recv s = .next s) ∧
  ∀ (s : State) (b : Byte) (q : List Byte), s.seq = .rxHdr → s.rxq = b :: q →
    (s.idx = 0#17 → exec .recv s = .next { s with rxq := q, h0 := b, idx := 1#17 }) ∧
    (s.idx = 1#17 → exec .recv s = .next { s with rxq := q, h1 := b, idx := 2#17 }) ∧
    (s.idx = 2#17 → exec .recv s = .next { s with rxq := q, h2 := b, idx := 3#17, seq := .rxValidate })

/-- The block's waits (R227), in its own turn, all state unchanged: IDLE, TX_WRITE and RX_ERRF without a reply, RX_HDR, RX_PAY
and RX_SUM on an empty RXQ. In every other state the block has a step, and it changes `seq` or faults. -/
def Obligations.BlockWaitsExactlyWhereTheRuleSays : Prop :=
  ∀ s : State, s.blockStopped = false → s.moves = [] →
    let waits : Prop := s.seq = .idle ∨ ((s.seq = .txWrite ∨ s.seq = .rxErrf) ∧ s.pending ≠ none) ∨
      ((s.seq = .rxHdr ∨ s.seq = .rxPay ∨ s.seq = .rxSum) ∧ s.rxq = [])
    (waits → step s = .next s) ∧
      (¬ waits → ∃ t, step s = .next t ∧ (t.seq ≠ s.seq ∨ t.rxq = s.rxq.tail ∧ t.rxq ≠ s.rxq ∨ t.blockStopped = true))

/-- R163 to R168: the RX_VALIDATE step. LENF, RX_LEN, RX_INFO and AVS are written whether or not the check passes; the
check is LengthOK of R166, in which LEN = 0 always fails; on a failure RECV is over, with nothing consumed and no error
frame, and on success the buffer is allocated. -/
def Obligations.RecvValidatesTheLength : Prop :=
  ∀ s : State, s.seq = .rxValidate →
    let len := s.h1.toNat * 256 + s.h2.toNat
    let avs := s.rxq.length
    let passes : Prop := 1 ≤ len ∧
      match s.params.availCheck with
      | .lowByte => avs = len % 256
      | .lowByteMod => avs % 256 = len % 256
      | .full => avs = len
    (passes →
      exec .recv s = .next
        { s with lenf := BitVec.ofNat 16 len, rxLen := BitVec.ofNat 32 (len - 1),
                 rxInfo := BitVec.ofNat 32 (len * 65536 + s.h0.toNat), avs := avs, rxPresent := true,
                 plen := BitVec.ofNat 17 (len - 1), idx := 0#17, seq := if len = 1 then .rxSum else .rxPay }) ∧
    (¬ passes →
      exec .recv s = .next
        { s with lenf := BitVec.ofNat 16 len, rxLen := BitVec.ofNat 32 ((len + 65535) % 65536),
                 rxInfo := BitVec.ofNat 32 (len * 65536 + s.h0.toNat), avs := avs, rxPresent := false,
                 rxValid := false, errFrame := false, result := false, err := .lengthMismatch, seq := .idle })

/-- R168: a passed check sets PLEN and RX_PRESENT; then each step of RX_PAY takes one byte of RXQ to RXP[IDX], every other
byte of RXP as before, and the byte that makes IDX equal PLEN is the last; an empty RXQ blocks. -/
def Obligations.RecvAllocatesAndStoresThePayload : Prop :=
  (∀ s : State, s.seq = .rxValidate → lengthOk s.params.availCheck s.rxq.length (s.h1 ++ s.h2) = true →
    ∃ t, exec .recv s = .next t ∧ t.plen.toNat + 1 = s.h1.toNat * 256 + s.h2.toNat ∧ t.rxPresent = true ∧
      t.idx = 0#17 ∧ t.rxq = s.rxq ∧ t.rxp = s.rxp ∧ t.seq = if t.plen = 0#17 then .rxSum else .rxPay) ∧
  (∀ (s : State) (b : Byte) (q : List Byte), s.seq = .rxPay → s.rxq = b :: q →
    ∃ rxp, exec .recv s = .next
        { s with rxq := q, rxp := rxp, idx := s.idx + 1#17,
                 seq := if s.idx + 1#17 = s.plen then .rxSum else .rxPay } ∧
      Memory.read rxp s.idx.toNat = some b ∧ ∀ a, a ≠ s.idx.toNat → Memory.read rxp a = Memory.read s.rxp a) ∧
  ∀ s : State, s.seq = .rxPay → s.rxq = [] → exec .recv s = .next s

/-- R169: exactly one more byte, into RXS and RX_INFO.RXSUM; RX_INFO's other fields keep their values; an empty RXQ
blocks. -/
def Obligations.RecvReadsTheChecksumByte : Prop :=
  (∀ (s : State) (b : Byte) (q : List Byte), s.seq = .rxSum → s.rxq = b :: q →
    ∃ info, exec .recv s = .next { s with rxq := q, rxs := b, rxInfo := info, seq := .rxVerify } ∧
      info.extractLsb' 8 8 = b ∧ info.extractLsb' 0 8 = s.rxInfo.extractLsb' 0 8 ∧
      info.extractLsb' 16 16 = s.rxInfo.extractLsb' 16 16) ∧
  ∀ s : State, s.seq = .rxSum → s.rxq = [] → exec .recv s = .next s

/-- R170 to R173: the RX_VERIFY step. The computed checksum goes to LAST_SUM; a match ends the RECV, a mismatch is
recorded and hands the five literal bytes of the error frame to the transport as one request. -/
def Obligations.RecvVerifiesTheChecksum : Prop :=
  ∀ (s : State) (p : List Byte), s.seq = .rxVerify → s.plen.toNat = p.length → s.lenf.toNat = p.length + 1 →
    s.rxp.holds p →
    (checksum p = s.rxs →
      exec .recv s = .next
        { s with acc := checksum p, lastSum := (checksum p).setWidth 32, sumValid := true, rxValid := true,
                 errFrame := false, result := true, err := .none, seq := .idle }) ∧
    (checksum p ≠ s.rxs →
      exec .recv s = .next
        { s with acc := checksum p, lastSum := (checksum p).setWidth 32, sumValid := true, rxValid := false,
                 errFrame := true, result := false, err := .checksumMismatch,
                 pending := some [0xE0#8, 0x00#8, 0x02#8, 0x03#8, 0x05#8], seq := .rxErrf })

/-- R174: in RX_ERRF the decoder waits; a reply, whatever it is, changes no register and delivers a prefix of the error frame
(R64); and then one step ends the RECV and changes nothing else. -/
def Obligations.RecvEndsOnAnyReply : Prop :=
  ∀ s : State, s.seq = .rxErrf →
    (∀ b, s.pending = some b → exec .recv s = .next s) ∧
    (∀ (k : Nat) (rest : List Move), s.pending = some Config.errorFrame →
      s.moves = .replyOk k :: rest ∨ (s.moves = .replyErr k :: rest ∧ k ≤ 5) →
      ∃ t, step s = .next t ∧ t.txs = s.txs ++ Config.errorFrame.take k ∧ t.seq = .rxErrf ∧
        t = { s with moves := rest, txs := t.txs, wreply := t.wreply, pending := none, abandoned := t.abandoned }) ∧
    (s.pending = none → exec .recv s = .next { s with seq := .idle })

/-- RECV never writes TXP, TXB, TX_WRITTEN, TXS or any state R160 does not list, in any of its steps. It stores to RXP
only, to the byte at IDX, and only in RX_PAY; ACC, LAST_SUM and SUM_VALID change in RX_VERIFY alone. -/
def Obligations.RecvFrame : Prop :=
  ∀ s t : State, exec .recv s = .next t →
    t = { s with
          seq := t.seq, lastOp := t.lastOp, result := t.result, err := t.err, rxValid := t.rxValid,
          rxPresent := t.rxPresent, sumValid := t.sumValid, errFrame := t.errFrame, rxLen := t.rxLen,
          rxInfo := t.rxInfo, lastSum := t.lastSum, rxp := t.rxp, acc := t.acc, idx := t.idx, h0 := t.h0, h1 := t.h1,
          h2 := t.h2, lenf := t.lenf, plen := t.plen, avs := t.avs, rxs := t.rxs, rxq := t.rxq, pending := t.pending,
          faults := t.faults, hostStopped := t.hostStopped } ∧
    (∀ a, Memory.read t.txp a = Memory.read s.txp a ∧ Memory.read t.txb a = Memory.read s.txb a) ∧
    (∀ a, a ≠ s.idx.toNat ∨ s.seq ≠ .rxPay → Memory.read t.rxp a = Memory.read s.rxp a) ∧
    (s.seq ≠ .rxVerify →
      t.acc = s.acc ∧ t.lastSum = s.lastSum ∧ t.sumValid = s.sumValid ∧ t.pending = s.pending) ∧
    (s.seq ≠ .rxVerify → s.seq ≠ .rxValidate → t.rxValid = s.rxValid ∧ t.errFrame = s.errFrame) ∧
    (s.seq ≠ .rxValidate → t.rxPresent = s.rxPresent ∧ t.rxLen = s.rxLen)

/-- The whole RECV that passes its length check (R160 to R176): from the host's write of RECV, with the frame whole at the
head of RXQ and no other agent moving, the block consumes exactly the LEN + 3 bytes of the frame and ends by R171, or stands
in RX_ERRF with the error frame handed over by R172 and R173, of which TXS gains nothing before the reply (log entry 12). The
first byte may be any value (R162). -/
def Obligations.RecvTakesOneFrame : Prop :=
  ∀ (s : State) (sync sum : Byte) (p behind : List Byte),
    s.seq = .idle → s.hostStopped = false → s.blockStopped = false → s.pending = none → p.length ≤ 65534 →
    s.rxq = sync :: BitVec.ofNat 8 ((p.length + 1) / 256) :: BitVec.ofNat 8 ((p.length + 1) % 256) ::
      (p ++ sum :: behind) →
    s.moves = [.hostWrite (regAddr s.params .cmd) 4 0x00000002#32] →
    (match s.params.availCheck with
      | .lowByte => p.length + 1 + behind.length = (p.length + 1) % 256
      | .lowByteMod => (p.length + 1 + behind.length) % 256 = (p.length + 1) % 256
      | .full => behind = []) →
    ∃ t : State, core.run (p.length + 7) s = .next t ∧ t.rxq = behind ∧ t.rxp.holds p ∧ t.rxPresent = true ∧
      t.rxLen = BitVec.ofNat 32 p.length ∧
      t.rxInfo = BitVec.ofNat 32 ((p.length + 1) * 65536 + sum.toNat * 256 + sync.toNat) ∧
      t.lastSum = (checksum p).setWidth 32 ∧ t.sumValid = true ∧ t.txs = s.txs ∧ t.txp = s.txp ∧
      t.txWritten = s.txWritten ∧ t.faults = s.faults ∧ t.lastOp = .recv ∧
      if sum = checksum p then
        t.seq = .idle ∧ t.rxValid = true ∧ t.result = true ∧ t.err = .none ∧ t.errFrame = false ∧ t.pending = none
      else
        t.seq = .rxErrf ∧ t.rxValid = false ∧ t.result = false ∧ t.err = .checksumMismatch ∧ t.errFrame = true ∧
          t.pending = some [0xE0#8, 0x00#8, 0x02#8, 0x03#8, 0x05#8]

/-- The whole RECV that fails its length check (R161, R167, R176): exactly three bytes are consumed, the rest stays in RXQ,
and nothing is sent. -/
def Obligations.RecvRejectsALengthMismatch : Prop :=
  ∀ (s : State) (sync hi lo : Byte) (behind : List Byte),
    s.seq = .idle → s.hostStopped = false → s.blockStopped = false → s.rxq = sync :: hi :: lo :: behind →
    s.moves = [.hostWrite (regAddr s.params .cmd) 4 0x00000002#32] →
    lengthOk s.params.availCheck behind.length (hi ++ lo) = false →
    ∃ t : State, core.run 5 s = .next t ∧ t.seq = .idle ∧ t.rxq = behind ∧ t.err = .lengthMismatch ∧ t.result = false ∧
      t.rxValid = false ∧ t.rxPresent = false ∧ t.errFrame = false ∧
      t.rxLen = BitVec.ofNat 32 ((hi.toNat * 256 + lo.toNat + 65535) % 65536) ∧ t.lastSum = s.lastSum ∧
      t.sumValid = s.sumValid ∧ t.txs = s.txs ∧ t.pending = s.pending ∧ t.txp = s.txp ∧ t.faults = s.faults

/-- R248 and R249, with R166: under LOW_BYTE with LEN <= 255 or under FULL the check passes only when exactly the LEN bytes of
the frame are queued; under LOW_BYTE a whole frame with LEN > 255 fails it, and one passes it whenever the count happens to
equal the low byte. -/
def Obligations.AvailabilityWindow : Prop :=
  ∀ s : State, s.seq = .rxValidate →
    let len := s.h1.toNat * 256 + s.h2.toNat
    ∃ t, exec .recv s = .next t ∧ (t.seq = .idle → t.err = .lengthMismatch ∧ t.rxq = s.rxq) ∧
      ((s.params.availCheck = .lowByte ∧ len ≤ 255 ∨ s.params.availCheck = .full) → 1 ≤ len →
        (t.seq ≠ .idle ↔ s.rxq.length = len)) ∧
      (s.params.availCheck = .lowByte → 255 < len → s.rxq.length = len → t.seq = .idle) ∧
      (s.params.availCheck = .lowByte → 1 ≤ len → s.rxq.length = s.h2.toNat → t.seq ≠ .idle) ∧
      (len = 0 → t.seq = .idle)

/-- The round trip of R177: a SEND whose every byte is delivered, its L + 4 bytes arriving as the whole of RXQ before the
RECV, and the RECV. AVAIL_CHECK is LOW_BYTE only with LEN <= 255. The frame RXQ holds is what TXS gained. -/
def Obligations.RoundTrip : Prop :=
  ∀ (s : State) (p wire : List Byte),
    s.seq = .idle → s.hostStopped = false → s.blockStopped = false → s.rxq = [] → p.length ≤ 65534 → s.txp.holds p →
    (s.params.availCheck = .lowByte → p.length + 1 ≤ 255) →
    s.moves = [.hostWrite (regAddr s.params .cmd) 4 (encode (.send (BitVec.ofNat 16 p.length))), .block,
      .replyOk (p.length + 4), .block, .peerAppend wire, .hostWrite (regAddr s.params .cmd) 4 (encode .recv)] →
    (∃ u : State, core.run 4 s = .next u ∧ u.result = true ∧ u.txs = s.txs ++ wire) →
    ∃ t : State, core.run (p.length + 12) s = .next t ∧ t.seq = .idle ∧ t.rxValid = true ∧ t.result = true ∧ t.err = .none ∧
      t.rxPresent = true ∧ t.rxLen = BitVec.ofNat 32 p.length ∧ t.rxp.holds p ∧ t.rxq = []

/-- The corruption property of R178: the frame of a payload reaches RXQ whole with exactly one payload byte changed; the
RECV ends with RX_VALID 0 and CHECKSUM_MISMATCH once the transport has replied, and TXS gains `E0 00 02 03 05`. -/
def Obligations.SingleByteCorruptionIsReported : Prop :=
  ∀ (s : State) (p q : List Byte) (b c : Byte),
    s.seq = .idle → s.hostStopped = false → s.blockStopped = false → s.pending = none → b ≠ c →
    (p ++ b :: q).length ≤ 65534 → (s.params.availCheck = .lowByte → (p ++ b :: q).length + 1 ≤ 255) →
    s.rxq = [0xE0#8, BitVec.ofNat 8 (((p ++ b :: q).length + 1) / 256),
      BitVec.ofNat 8 (((p ++ b :: q).length + 1) % 256)] ++ (p ++ c :: q) ++ [checksum (p ++ b :: q)] →
    s.moves = .hostWrite (regAddr s.params .cmd) 4 0x00000002#32 ::
      (List.replicate ((p ++ b :: q).length + 6) .block ++ [.replyOk 5, .block]) →
    ∃ t : State, core.run ((p ++ b :: q).length + 9) s = .next t ∧ t.seq = .idle ∧ t.rxValid = false ∧ t.result = false ∧
      t.err = .checksumMismatch ∧ t.errFrame = true ∧ t.txs = s.txs ++ [0xE0#8, 0x00#8, 0x02#8, 0x03#8, 0x05#8] ∧
      t.rxp.holds (p ++ c :: q) ∧ t.rxPresent = true ∧ t.txWritten = s.txWritten

/-! ## The host window -/

/-- R22: STATUS.BUSY, bit 0 of what the host reads, is 1 exactly while `seq` is not IDLE; the read takes place in any
state. -/
def Obligations.BusyReadsOneExactlyWhileNotIdle : Prop :=
  ∀ (s : State) (rest : List Move), s.hostStopped = false →
    s.moves = .hostRead (regAddr s.params .status) 4 :: rest →
    ∃ t, step s = .next t ∧ t = { s with moves := rest, readData := t.readData, draws := t.draws } ∧
      (t.readData.extractLsb' 0 1 = 1#1 ↔ s.seq ≠ .idle)

/-- STATUS as an idle block shows it, field by field (R24 to R32). -/
def Obligations.StatusFieldsWhenIdle : Prop :=
  ∀ (s : State) (rest : List Move), s.hostStopped = false → s.seq = .idle →
    s.moves = .hostRead (regAddr s.params .status) 4 :: rest →
    ∃ v : Word, step s = .next { s with moves := rest, readData := v } ∧
      v.extractLsb' 0 1 = 0#1 ∧
      (v.extractLsb' 1 3).toNat =
        (match s.lastOp with | .none => 0 | .send => 1 | .recv => 2 | .csum => 3 | .rejected => 4) ∧
      v.getLsbD 4 = s.result ∧ v.getLsbD 5 = s.rxValid ∧ v.getLsbD 6 = s.rxPresent ∧ v.getLsbD 7 = s.sumValid ∧
      v.getLsbD 8 = s.errFrame ∧ v.extractLsb' 9 3 = 0#3 ∧
      (v.extractLsb' 12 4).toNat =
        (match s.err with
          | .none => 0 | .transmitIncomplete => 1 | .checksumMismatch => 2 | .lengthMismatch => 3 | .txLengthError => 4
          | .illegalCommand => 5) ∧
      v.extractLsb' 16 16 = 0#16

/-- R53: a byte written to TXP is the byte read, the write changes no other byte, TXW decides whether a read answers, an
access of another size is HOST_ACCESS, and a one-byte access while BUSY is 1 is HAZARD. That a read while BUSY is 1 of a byte
never written records HAZARD alone, and not UNWRITTEN_TXP, is the model's reading of the order of the checks (log entry 8);
the other sizes while BUSY is 1 are WrongSizesAreHostAccessFaults'. -/
def Obligations.TxpAccess : Prop :=
  ∀ (s : State) (i : Nat) (rest : List Move), s.hostStopped = false → i < 65534 →
    (∀ v : Word, s.moves = .hostWrite (txpAddr s.params i) 1 v :: rest →
      (s.seq = .idle → ∃ txp, step s = .next { s with moves := rest, txp := txp } ∧
        Memory.read txp i = some (v.extractLsb' 0 8) ∧ ∀ a, a ≠ i → Memory.read txp a = Memory.read s.txp a) ∧
      (s.seq ≠ .idle → step s = .next (hostFault .hazard { s with moves := rest }))) ∧
    (s.moves = .hostRead (txpAddr s.params i) 1 :: rest →
      (∀ b, s.seq = .idle → Memory.read s.txp i = some b →
        step s = .next { s with moves := rest, readData := b.setWidth 32 }) ∧
      (s.seq = .idle → Memory.read s.txp i = none → step s = .next (hostFault .unwrittenTxp { s with moves := rest })) ∧
      (s.seq ≠ .idle → step s = .next (hostFault .hazard { s with moves := rest }))) ∧
    ∀ n, n ≠ 1 → s.seq = .idle →
      (s.moves = .hostRead (txpAddr s.params i) n :: rest ∨
        ∃ v, s.moves = .hostWrite (txpAddr s.params i) n v :: rest) →
      step s = .next (hostFault .hostAccess { s with moves := rest })

/-- R54: a single-byte RXP read answers inside the live buffer, is HAZARD while BUSY is 1 and RXP_RANGE otherwise; a read of
another size is HOST_ACCESS. -/
def Obligations.RxpAccess : Prop :=
  ∀ (s : State) (i : Nat) (rest : List Move), s.hostStopped = false → i < 65534 →
    (s.moves = .hostRead (rxpAddr s.params i) 1 :: rest →
      (s.seq = .idle → s.rxPresent = true → i < s.rxLen.toNat % 65536 →
        ∃ b, (∀ c, Memory.read s.rxp i = some c → b = c) ∧
          step s = .next { s with moves := rest, readData := b.setWidth 32 }) ∧
      (s.seq ≠ .idle → step s = .next (hostFault .hazard { s with moves := rest })) ∧
      (s.seq = .idle → ¬ (s.rxPresent = true ∧ i < s.rxLen.toNat % 65536) →
        step s = .next (hostFault .rxpRange { s with moves := rest }))) ∧
    ∀ n, n ≠ 1 → s.seq = .idle → s.moves = .hostRead (rxpAddr s.params i) n :: rest →
      step s = .next (hostFault .hostAccess { s with moves := rest })

/-- Reads of the result registers (R36, R55): HAZARD while BUSY is 1; while BUSY is 0 the register's value, but for a
LAST_SUM that no command has written, which is LAST_SUM_UNWRITTEN. That a read of such a LAST_SUM while BUSY is 1 records
HAZARD alone, and not LAST_SUM_UNWRITTEN, is the model's reading of the order of the checks (log entry 8). -/
def Obligations.ResultRegisterReads : Prop :=
  ∀ (s : State) (r : Reg) (rest : List Move), s.hostStopped = false → r ∈ [Reg.rxLen, .rxInfo, .lastSum, .txWritten] →
    s.moves = .hostRead (regAddr s.params r) 4 :: rest →
    (s.seq ≠ .idle → step s = .next (hostFault .hazard { s with moves := rest })) ∧
    (s.seq = .idle → r = .lastSum → s.sumValid = false →
      step s = .next (hostFault .lastSumUnwritten { s with moves := rest })) ∧
    (s.seq = .idle → (r = .lastSum → s.sumValid = true) →
      step s = .next
        { s with moves := rest, readData := match r with
          | .rxLen => s.rxLen | .rxInfo => s.rxInfo | .lastSum => s.lastSum | .txWritten => s.txWritten
          | .cmd | .status => s.readData })

/-- R52: a read of CMD, a write to a read-only register or to RXP, and any access to an unmapped address of the window are
HOST_ACCESS, whatever the state and the size. -/
def Obligations.ForbiddenAccessesAreHostAccessFaults : Prop :=
  ∀ (s : State) (off n : Nat) (rest : List Move), s.hostStopped = false → off < 0x40000 →
    let unmapped : Prop := off ∉ [0x0, 0x4, 0x8, 0xC, 0x10, 0x14] ∧ ¬ (0x10000 ≤ off ∧ off ≤ 0x1FFFD) ∧
      ¬ (0x20000 ≤ off ∧ off ≤ 0x2FFFD)
    (s.moves = .hostRead (s.params.base + off) n :: rest → off = 0x0 ∨ unmapped →
      step s = .next (hostFault .hostAccess { s with moves := rest })) ∧
    ∀ v : Word, s.moves = .hostWrite (s.params.base + off) n v :: rest →
      off ∈ [0x4, 0x8, 0xC, 0x10, 0x14] ∨ (0x20000 ≤ off ∧ off ≤ 0x2FFFD) ∨ unmapped →
      step s = .next (hostFault .hostAccess { s with moves := rest })

/-- Accesses of the wrong size, to a register (R51) or to a buffer byte (R53, R54), are HOST_ACCESS. That this also holds of
an access that BUSY forbids is the model's reading of the order of the checks (log entry 8). -/
def Obligations.WrongSizesAreHostAccessFaults : Prop :=
  ∀ (s : State) (off n : Nat) (rest : List Move), s.hostStopped = false →
    (off ∈ [0x0, 0x4, 0x8, 0xC, 0x10, 0x14] ∧ n ≠ 4) ∨
      ((0x10000 ≤ off ∧ off ≤ 0x1FFFD ∨ 0x20000 ≤ off ∧ off ≤ 0x2FFFD) ∧ n ≠ 1) →
    (s.moves = .hostRead (s.params.base + off) n :: rest ∨ ∃ v, s.moves = .hostWrite (s.params.base + off) n v :: rest) →
    step s = .next (hostFault .hostAccess { s with moves := rest })

/-! ## The transport, the peer and the reset -/

/-- R64 (with the reply of R63): OK(k) appends the first min(k, |b|) bytes of the request to TXS, nothing for k = 0, and ERR
appends some prefix, in one piece and in order; the block's registers do not change. -/
def Obligations.RepliesDeliverAPrefix : Prop :=
  ∀ (s : State) (b : List Byte) (rest : List Move), s.pending = some b →
    (∀ k, s.moves = .replyOk k :: rest →
      ∃ t, step s = .next t ∧ t.txs = s.txs ++ b.take (min k b.length) ∧
        t = { s with moves := rest, txs := t.txs, wreply := .ok k, pending := none, abandoned := t.abandoned }) ∧
    ∀ p, p ≤ b.length → s.moves = .replyErr p :: rest →
      ∃ t, step s = .next t ∧ t.txs = s.txs ++ b.take p ∧
        t = { s with moves := rest, txs := t.txs, wreply := .err, pending := none, abandoned := t.abandoned }

/-- RXQ (R60, R66): the peer's append adds at the tail and changes nothing else, in any state; the host's drop takes from
the head while BUSY is 0 and changes nothing else. -/
def Obligations.QueueMoves : Prop :=
  ∀ (s : State) (rest : List Move),
    (∀ bs, s.moves = .peerAppend bs :: rest → step s = .next { s with moves := rest, rxq := s.rxq ++ bs }) ∧
    ∀ n, s.moves = .hostDrop n :: rest → s.hostStopped = false → s.seq = .idle → n ≤ s.rxq.length →
      step s = .next { s with moves := rest, rxq := s.rxq.drop n }

/-- The model's own choice (log entry 2): a move that the rules give no agent stops the machine. A reply or a settlement with
nothing to answer (R63, R241), one that delivers more than the request holds (R64), a drop while BUSY is 1 or of more bytes
than RXQ holds (R66). -/
def Obligations.MovesThatNoAgentHasStopTheMachine : Prop :=
  ∀ (s : State) (n : Nat) (rest : List Move),
    ((s.moves = .replyOk n :: rest ∨ s.moves = .replyErr n :: rest) → s.pending = none → step s = .fault .noSuchMove) ∧
    (∀ b, s.moves = .replyErr n :: rest → s.pending = some b → b.length < n → step s = .fault .noSuchMove) ∧
    (s.moves = .settleAbandoned n :: rest → (∀ b older, s.abandoned = b :: older → b.length < n) →
      step s = .fault .noSuchMove) ∧
    (s.moves = .hostDrop n :: rest → s.hostStopped = false → s.seq ≠ .idle ∨ s.rxq.length < n →
      step s = .fault .noSuchMove)

/-- What the spec gives for the start of a run (R240 and the reset table): the values of every register it states one
for, no byte of TXP written, no buffer, FAULTS empty. -/
def Obligations.ResetValues : Prop :=
  State.reset.seq = .idle ∧ statusWord State.reset = 0#32 ∧ State.reset.rxLen = 0#32 ∧ State.reset.rxInfo = 0#32 ∧
    State.reset.txWritten = 0#32 ∧ State.reset.lastSum.extractLsb' 8 24 = 0#24 ∧ State.reset.sumValid = false ∧
    State.reset.rxPresent = false ∧ (∀ i, Memory.read State.reset.txp i = none) ∧ State.reset.faults = []

/-- R241 and R242, with the values of R240: the reset input, in any state. The block's state takes its reset values, a command
in progress leaves no result, RXQ and TXS are not changed, FAULTS is not cleared, and a request already handed over may still
deliver any prefix, its reply discarded. -/
def Obligations.ResetInput : Prop :=
  (∀ (s : State) (rest : List Move), s.moves = .reset :: rest →
    ∃ t, step s = .next t ∧ t.seq = .idle ∧ statusWord t = 0#32 ∧ t.rxLen = 0#32 ∧ t.rxInfo = 0#32 ∧ t.txWritten = 0#32 ∧
      t.lastSum.extractLsb' 8 24 = 0#24 ∧ t.sumValid = false ∧ t.rxPresent = false ∧
      (∀ i, Memory.read t.txp i = none) ∧ t.rxq = s.rxq ∧ t.txs = s.txs ∧ t.faults = s.faults ∧ t.pending = none ∧
      t.abandoned = s.abandoned ++ s.pending.toList ∧ t.moves = rest ∧ t.params = s.params) ∧
  ∀ (s : State) (b : List Byte) (older : List (List Byte)) (p : Nat) (rest : List Move),
    s.abandoned = b :: older → p ≤ b.length → s.moves = .settleAbandoned p :: rest →
    step s = .next { s with moves := rest, txs := s.txs ++ b.take p, abandoned := older }

/-! ## The whole machine -/

/-- Reset meets the invariant. -/
def Obligations.ResetMeetsTheInvariant : Prop := State.reset.Inv

/-- Every step keeps the invariant: buffers canonical and in range, register bits that read 0 are 0, what each sequencer
state guarantees, how the STATUS fields go together, and what FAULTS records. -/
def Obligations.StepKeepsTheInvariant : Prop := ∀ s t : State, s.Inv → step s = .next t → t.Inv

/-- R217: "no step removes a reason, not even a reset", and an agent that has stopped stays stopped. That it stays stopped
through a reset, after which R240 has the block take any command, is the model's reading (log entry 7). -/
def Obligations.FaultsAreNeverRemoved : Prop :=
  ∀ s t : State, step s = .next t →
    (∀ r ∈ s.faults, r ∈ t.faults) ∧ (s.hostStopped = true → t.hostStopped = true) ∧
      (s.blockStopped = true → t.blockStopped = true)

/-- "The faulting agent takes no further step" (R217): once stopped, a host's moves change nothing, and the block's turn
changes nothing. A word written to CMD of a stopped block in IDLE changes nothing either, legal or not: that the command decode
is the block's step is the model's choice (log entry 15), and that a block which a reset made IDLE is still stopped its reading
(log entry 7). What the others do is StoppedAgentsDoNotHinderTheOthers. -/
def Obligations.StoppedAgentsTakeNoStep : Prop :=
  ∀ (s : State) (rest : List Move),
    (s.hostStopped = true → ∀ m : Move, m.ofHost = true → s.moves = m :: rest →
      step s = .next { s with moves := rest }) ∧
    (s.blockStopped = true → s.moves = .block :: rest → step s = .next { s with moves := rest }) ∧
    (s.blockStopped = true → s.moves = [] → step s = .next s) ∧
    ∀ w : Word, s.blockStopped = true → s.seq = .idle → s.moves = .hostWrite (regAddr s.params .cmd) 4 w :: rest →
      step s = .next { s with moves := rest }

/-- R225 and R13: logging is "entirely side-channel and must not affect protocol outcomes": two machines that differ only
in LOG_ENABLE answer the same, but for LOG_ENABLE; and no step writes a parameter (R46). -/
def Obligations.LoggingChangesNothing : Prop :=
  (∀ s t : State, step s = .next t → t.params = s.params) ∧
    ∀ (s : State) (b : Bool),
      step { s with params := { s.params with logEnable := b } } =
        match step s with
        | .next t => .next { t with params := { t.params with logEnable := b } }
        | .fault f => .fault f
        | .refused r => .refused r

/-- R35 (and R27, R28, R30, R39): the ReceivedFrame and RX_INFO change in no step but the block's own turn in a RECV, and a
reset. The other agents' moves change none of them, while a RECV is in progress as little as otherwise. -/
def Obligations.OnlyRecvChangesTheReceivedFrame : Prop :=
  ∀ s t : State, step s = .next t →
    (s.inFlight = some .recv → s.moves.head? ≠ none ∧ s.moves.head? ≠ some .block) → s.moves.head? ≠ some .reset →
    t.rxLen = s.rxLen ∧ t.rxInfo = s.rxInfo ∧ t.rxValid = s.rxValid ∧ t.rxPresent = s.rxPresent ∧
      t.errFrame = s.errFrame ∧ ∀ a, Memory.read t.rxp a = Memory.read s.rxp a

/-- Who writes the other buffer and the streams. TXP: only a one-byte write of a running host to an address of TXP while BUSY
is 0, and a reset (R38, R53). TXS only grows, and only by a reply or by the settlement of a request that a reset abandoned
(R64, R241). The spec does not say in which step the bytes of a request reach TXS: that it is the step of the reply or of the
settlement, and no earlier one, is the model's choice (log entry 12). RXQ: the peer's append at the tail, the host's drop from
the head while BUSY is 0, and the block's turn in a RECV, which takes the head byte (R60, R61, R66). -/
def Obligations.StreamsAndTxpChangeOnlyAsTheRulesSay : Prop :=
  ∀ s t : State, step s = .next t →
    (t.txp ≠ s.txp → s.moves.head? = some .reset ∨
      ∃ i v, i < 65534 ∧ s.moves.head? = some (.hostWrite (txpAddr s.params i) 1 v) ∧ s.hostStopped = false ∧
        s.seq = .idle) ∧
    (∃ d, t.txs = s.txs ++ d) ∧
    (t.txs ≠ s.txs → ∃ n, s.moves.head? = some (.replyOk n) ∨ s.moves.head? = some (.replyErr n) ∨
      s.moves.head? = some (.settleAbandoned n)) ∧
    (t.rxq ≠ s.rxq →
      (∃ bs, s.moves.head? = some (.peerAppend bs) ∧ t.rxq = s.rxq ++ bs) ∨
      (∃ n, s.moves.head? = some (.hostDrop n) ∧ s.seq = .idle ∧ t.rxq = s.rxq.drop n) ∨
      ((s.moves.head? = none ∨ s.moves.head? = some .block) ∧ s.inFlight = some .recv ∧ ∃ b, s.rxq = b :: t.rxq))

/-- R21: "No command ever returns to an earlier state of its own sequence": but for a reset, `seq` moves only forward along
its command's states, with the per-byte repetition of RX_HDR and RX_PAY and the waits. -/
def Obligations.SequencerMovesForward : Prop :=
  ∀ s t : State, step s = .next t → s.moves.head? ≠ some .reset → t.seq ∈ seqSuccessors s.seq

/-- A host that keeps the usage rules R243 to R247 meets no model fault: from a state with none recorded and none on its
way, a step whose move keeps the rules leaves such a state. -/
def Obligations.RuleKeepingHostMeetsNoFault : Prop :=
  ∀ s t : State, s.FaultFree → (∀ m rest, s.moves = m :: rest → keepsUsageRules m s) → step s = .next t → t.FaultFree

/-- When the machine stops: never by a command or by the block (R210, R217), never by a refusal, and only in the model's two
own cases. outsideWindow is exactly an access of a running host outside the window (log entry 9). noSuchMove is only a move
that the rules give no agent (log entry 2): a reply with no request outstanding (R63), an ERR or a settlement that delivers
more than there is (R64, R241), a drop while BUSY is 1 or of more than RXQ holds (R66). That each of those moves does stop the
machine is MovesThatNoAgentHasStopTheMachine. -/
def Obligations.MachineStopsOnlyOnMovesOutsideTheSpec : Prop :=
  ∀ s : State,
    (∀ r, step s ≠ .refused r) ∧
    (∀ f, step s = .fault f → s.moves.head? ≠ none ∧ s.moves.head? ≠ some .block ∧ s.moves.head? ≠ some .reset ∧
      ∀ bs, s.moves.head? ≠ some (.peerAppend bs)) ∧
    (step s = .fault .outsideWindow ↔ s.hostStopped = false ∧
      ∃ addr n, (s.moves.head? = some (.hostRead addr n) ∨ ∃ v, s.moves.head? = some (.hostWrite addr n v)) ∧
        ¬ (s.params.base ≤ addr ∧ addr < s.params.base + 0x40000)) ∧
    (step s = .fault .noSuchMove →
      (s.pending = none ∧ ∃ n, s.moves.head? = some (.replyOk n) ∨ s.moves.head? = some (.replyErr n)) ∨
      (∃ p b, s.moves.head? = some (.replyErr p) ∧ s.pending = some b ∧ b.length < p) ∨
      (∃ p, s.moves.head? = some (.settleAbandoned p) ∧ ∀ b older, s.abandoned = b :: older → b.length < p) ∨
      ∃ n, s.moves.head? = some (.hostDrop n) ∧ s.hostStopped = false ∧ (s.seq ≠ .idle ∨ s.rxq.length < n))

/-- A stopped agent holds up no other (R217 stops "the faulting agent"; that the others go on is the model's reading, log entry
18). Whether the host has stopped makes no difference to a step that is not the host's move; and whether the block has stopped
makes none to another agent's move, but for a command word written while BUSY is 0, which the block takes. -/
def Obligations.StoppedAgentsDoNotHinderTheOthers : Prop :=
  (∀ (s : State) (b : Bool), (∀ m, s.moves.head? = some m → m.ofHost = false) →
    step { s with hostStopped := b } = mapNext (fun t => { t with hostStopped := b }) (step s)) ∧
  ∀ (s : State) (b : Bool), s.moves.head? ≠ none → s.moves.head? ≠ some .block →
    (s.seq = .idle → ∀ w, s.moves.head? ≠ some (.hostWrite (regAddr s.params .cmd) 4 w)) →
    step { s with blockStopped := b } = mapNext (fun t => { t with blockStopped := b }) (step s)

/-- The order of requests on TXS: R64's "before any byte of a later request", for the requests that a reset abandoned (R241).
A reply that delivers a byte leaves no abandoned request that could still deliver, and one that delivers none leaves them all; no
step but a reply, a settlement and a reset changes what is still to be delivered. That the abandoned requests are dropped in the
step of that reply is the model's choice (log entry 12). -/
def Obligations.LaterRequestsSilenceAbandonedOnes : Prop :=
  (∀ (s : State) (b : List Byte) (rest : List Move), s.pending = some b →
    (∀ k, s.moves = .replyOk k :: rest →
      ∃ t, step s = .next t ∧ t.abandoned = if min k b.length = 0 then s.abandoned else []) ∧
    ∀ p, p ≤ b.length → s.moves = .replyErr p :: rest →
      ∃ t, step s = .next t ∧ t.abandoned = if p = 0 then s.abandoned else []) ∧
  ∀ s t : State, step s = .next t → t.abandoned ≠ s.abandoned →
    s.moves.head? = some .reset ∨ ∃ n, s.moves.head? = some (.replyOk n) ∨ s.moves.head? = some (.replyErr n) ∨
      s.moves.head? = some (.settleAbandoned n)
end

