-- ==== Sys2Proof/Laws/Checksum.lean ====
section
/-! SUPPORT. The accumulator computes a sum modulo 256: the small lemmas the checksum statements rest on. -/

namespace Sys2Proof.Machine

@[simp] theorem accumulate_nil (len : Half) : accumulate len [] = accInit len := rfl

theorem accInit_toNat (len : Half) : (accInit len).toNat = len.toNat % 256 := by
  simp [accInit]

/-- A fold of ACC_ADD is the starting value plus the sum, modulo 256. -/
theorem foldl_accAdd_toNat (p : List Byte) (a : Byte) :
    (p.foldl accAdd a).toNat = (a.toNat + (p.map BitVec.toNat).sum) % 256 := by
  induction p generalizing a with
  | nil =>
    have := a.isLt
    simp only [List.foldl_nil, List.map_nil, List.sum_nil]
    omega
  | cons b p ih =>
    rw [List.foldl_cons, ih]
    simp only [accAdd, BitVec.toNat_add, List.map_cons, List.sum_cons]
    omega

theorem accumulate_toNat (len : Half) (p : List Byte) :
    (accumulate len p).toNat = (len.toNat + (p.map BitVec.toNat).sum) % 256 := by
  rw [accumulate, foldl_accAdd_toNat, accInit_toNat]
  omega

/-- With LEN one more than the payload's length the accumulator's result is the checksum of R110. -/
theorem accumulate_eq_checksum {len : Half} {p : List Byte} (h : len.toNat = p.length + 1) :
    accumulate len p = checksum p := by
  apply BitVec.eq_of_toNat_eq
  rw [accumulate_toNat, h, checksum, BitVec.toNat_ofNat]
  omega

theorem checksum_toNat (p : List Byte) :
    (checksum p).toNat = (p.length + 1 + (p.map BitVec.toNat).sum) % 256 := by
  rw [checksum, BitVec.toNat_ofNat]
  omega

@[simp] theorem frameOf_length (p : List Byte) : (frameOf p).length = p.length + 4 := by
  simp [frameOf]

/-- The bytes the encoder assembles are the frame of R86. -/
theorem frameBytes_eq_frameOf {len : Half} {p : List Byte} (h : len.toNat = p.length + 1) :
    frameBytes len p (accumulate len p) = frameOf p := by
  have hlo : len.extractLsb' 0 8 = BitVec.ofNat 8 ((p.length + 1) % 256) := by
    apply BitVec.eq_of_toNat_eq
    simp [h]
  have hhi : len.extractLsb' 8 8 = BitVec.ofNat 8 ((p.length + 1) / 256) := by
    apply BitVec.eq_of_toNat_eq
    simp [h, Nat.shiftRight_eq_div_pow]
  simp [frameBytes, frameOf, accumulate_eq_checksum h, hlo, hhi, Config.sync]

end Sys2Proof.Machine
end

