-- ==== Sys2Proof/Laws/Flags.lean ====
section
/-! SUPPORT. The register words as numbers: what each field of a concatenation contributes. -/

namespace Sys2Proof.Machine

/-- `{a, b}` with a in the more significant position (R14), as a number. -/
theorem append_toNat {n m : Nat} (a : BitVec n) (b : BitVec m) : (a ++ b).toNat = a.toNat * 2 ^ m + b.toNat := by
  rw [BitVec.toNat_append, ← Nat.shiftLeft_add_eq_or_of_lt b.isLt, Nat.shiftLeft_eq]

theorem rxInfoWord_toNat (len : Half) (sum hdr0 : Byte) :
    (rxInfoWord len sum hdr0).toNat = len.toNat * 65536 + sum.toNat * 256 + hdr0.toNat := by
  rw [rxInfoWord, append_toNat, append_toNat]
  omega

theorem setRxSum_toNat (info : Word) (b : Byte) :
    (setRxSum info b).toNat = info.toNat / 65536 * 65536 + b.toNat * 256 + info.toNat % 256 := by
  have := info.isLt
  rw [setRxSum, append_toNat, append_toNat, BitVec.extractLsb'_toNat, BitVec.extractLsb'_toNat,
    Nat.shiftRight_eq_div_pow, Nat.shiftRight_eq_div_pow]
  omega

/-- Writing RXSUM into the RX_INFO that the header wrote gives the RX_INFO with that RXSUM (R163, R169). -/
theorem setRxSum_rxInfoWord (len : Half) (sum b hdr0 : Byte) :
    setRxSum (rxInfoWord len sum hdr0) b = rxInfoWord len b hdr0 := by
  apply BitVec.eq_of_toNat_eq
  have h1 := hdr0.isLt
  have h2 := sum.isLt
  rw [setRxSum_toNat, rxInfoWord_toNat, rxInfoWord_toNat]
  omega

theorem rxLenWord_toNat (len : Half) : (rxLenWord len).toNat = (len.toNat + 65535) % 65536 := by
  have := len.isLt
  simp only [rxLenWord, BitVec.toNat_setWidth, BitVec.toNat_sub, BitVec.toNat_ofNat]
  omega

end Sys2Proof.Machine
end

