-- ==== Sys2Proof/Laws/Memory.lean ====
section
/-! SUPPORT. The laws of a buffer: read after write, writes elsewhere, the canonical form, and the block reads and writes
over them. -/

namespace Sys2Proof.Machine

@[simp] theorem Memory.read_nil (a : Nat) : Memory.read [] a = none := rfl

theorem Memory.read_write_same (m : Memory) (a : Nat) (v : Byte) : Memory.read (Memory.write m a v) a = some v := by
  induction m with
  | nil => simp [Memory.write, Memory.read]
  | cons c m ih =>
    obtain ⟨b, w⟩ := c
    simp only [Memory.write]
    split
    · simp [Memory.read]
    · split
      · simp [Memory.read]
      · rename_i h
        simpa [Memory.read, h] using ih

theorem Memory.read_write_other (m : Memory) {a x : Nat} (v : Byte) (h : x ≠ a) :
    Memory.read (Memory.write m a v) x = Memory.read m x := by
  induction m with
  | nil => simp [Memory.write, Memory.read, h]
  | cons c m ih =>
    obtain ⟨b, w⟩ := c
    simp only [Memory.write]
    split
    · simp [Memory.read, h]
    · split
      · rename_i hab
        subst hab
        simp [Memory.read, h]
      · simp only [Memory.read, ih]

theorem Memory.mem_write {m : Memory} {a : Nat} {v : Byte} {c : Host.Cell} (h : c ∈ Memory.write m a v) :
    c = (a, v) ∨ c ∈ m := by
  induction m with
  | nil => exact .inl (by simpa [Memory.write] using h)
  | cons d m ih =>
    obtain ⟨b, w⟩ := d
    simp only [Memory.write] at h
    split at h
    · simpa using h
    · split at h
      · simp only [List.mem_cons] at h ⊢
        tauto
      · simp only [List.mem_cons] at h ⊢
        rcases h with h | h
        · exact .inr (.inl h)
        · exact (ih h).imp_right .inr

/-- A write keeps the canonical form. -/
theorem Memory.write_wf {m : Memory} (h : m.wf) (a : Nat) (v : Byte) : (Memory.write m a v).wf := by
  induction m with
  | nil => simp [Memory.write, Memory.wf]
  | cons c m ih =>
    obtain ⟨b, w⟩ := c
    obtain ⟨hb, hm⟩ := List.pairwise_cons.1 h
    simp only [Memory.write]
    split
    · rename_i hlt
      refine List.pairwise_cons.2 ⟨fun d hd => ?_, h⟩
      rcases List.mem_cons.1 hd with rfl | hd
      · exact hlt
      · exact Nat.lt_trans hlt (hb d hd)
    · split
      · rename_i heq
        subst heq
        exact List.pairwise_cons.2 ⟨hb, hm⟩
      · refine List.pairwise_cons.2 ⟨fun d hd => ?_, ih hm⟩
        rcases Memory.mem_write hd with rfl | hd
        · show b < a
          omega
        · exact hb d hd

theorem Memory.write_within {m : Memory} {size a : Nat} (h : m.within size) (ha : a < size) (v : Byte) :
    (Memory.write m a v).within size := by
  intro c hc
  rcases Memory.mem_write hc with rfl | hc
  · exact ha
  · exact h c hc

theorem Memory.writeBytes_wf {m : Memory} (h : m.wf) (a : Nat) (bs : List Byte) : (Memory.writeBytes m a bs).wf := by
  induction bs generalizing m a with
  | nil => exact h
  | cons b bs ih => exact ih (Memory.write_wf h a b) (a + 1)

theorem Memory.writeBytes_within {m : Memory} {size a : Nat} {bs : List Byte} (h : m.within size)
    (ha : a + bs.length ≤ size) : (Memory.writeBytes m a bs).within size := by
  induction bs generalizing m a with
  | nil => exact h
  | cons b bs ih =>
    simp only [List.length_cons] at ha
    exact ih (Memory.write_within h (by omega) b) (by omega)

/-- What a block write leaves alone. -/
theorem Memory.read_writeBytes_other (m : Memory) {a x : Nat} {bs : List Byte} (h : x < a ∨ a + bs.length ≤ x) :
    Memory.read (Memory.writeBytes m a bs) x = Memory.read m x := by
  induction bs generalizing m a with
  | nil => rfl
  | cons b bs ih =>
    simp only [List.length_cons] at h
    rw [Memory.writeBytes, ih _ (by omega), Memory.read_write_other _ _ (by omega)]

/-- What a block write leaves behind. -/
theorem Memory.read_writeBytes (m : Memory) {a i : Nat} {bs : List Byte} (h : i < bs.length) :
    Memory.read (Memory.writeBytes m a bs) (a + i) = bs[i]? := by
  induction bs generalizing m a i with
  | nil => simp at h
  | cons b bs ih =>
    cases i with
    | zero =>
      rw [Memory.writeBytes, Memory.read_writeBytes_other _ (by omega)]
      simpa using Memory.read_write_same m a b
    | succ i =>
      simp only [List.length_cons] at h
      have := ih (Memory.write m a b) (a := a + 1) (i := i) (by omega)
      simpa [Memory.writeBytes, Nat.add_assoc, Nat.add_comm 1 i] using this

/-- A block read answers exactly the bytes the buffer holds there. -/
theorem Memory.readBytes_eq_some {m : Memory} {a n : Nat} {bs : List Byte} :
    Memory.readBytes m a n = some bs ↔ bs.length = n ∧ ∀ i < n, Memory.read m (a + i) = bs[i]? := by
  induction n generalizing a bs with
  | zero =>
    simp only [Memory.readBytes, Option.some.injEq]
    constructor
    · rintro rfl
      simp
    · rintro ⟨h, -⟩
      exact (List.length_eq_zero_iff.1 h).symm
  | succ n ih =>
    have step : ∀ i, a + 1 + i = a + (i + 1) := fun i => by omega
    constructor
    · intro h
      simp only [Memory.readBytes] at h
      split at h
      · rename_i b cs hb hcs
        cases h
        obtain ⟨hl, hr⟩ := ih.1 hcs
        refine ⟨by simp [hl], fun i hi => ?_⟩
        cases i with
        | zero => simpa using hb
        | succ i => simpa [step] using hr i (by omega)
      · cases h
    · rintro ⟨hl, hr⟩
      cases bs with
      | nil => simp at hl
      | cons b cs =>
        have hb : Memory.read m a = some b := by simpa using hr 0 (by omega)
        have hcs : Memory.readBytes m (a + 1) n = some cs :=
          ih.2 ⟨by simpa using hl, fun i hi => by simpa [step] using hr (i + 1) (by omega)⟩
        simp [Memory.readBytes, hb, hcs]

/-- A block read answers nothing exactly when one of its bytes has not been written. -/
theorem Memory.readBytes_eq_none {m : Memory} {a n : Nat} :
    Memory.readBytes m a n = none ↔ ∃ i < n, Memory.read m (a + i) = none := by
  induction n generalizing a with
  | zero => simp [Memory.readBytes]
  | succ n ih =>
    have ih' := ih (a := a + 1)
    constructor
    · intro h
      simp only [Memory.readBytes] at h
      split at h
      · cases h
      · rename_i hne
        cases hb : Memory.read m a with
        | none => exact ⟨0, by omega, by simpa using hb⟩
        | some b =>
          cases hcs : Memory.readBytes m (a + 1) n with
          | none =>
            obtain ⟨i, hi, hr⟩ := ih'.1 hcs
            exact ⟨i + 1, by omega, by rw [← hr]; congr 1; omega⟩
          | some cs => exact absurd hcs (hne b cs hb)
    · rintro ⟨i, hi, hr⟩
      simp only [Memory.readBytes]
      split
      · rename_i b cs hb hcs
        cases i with
        | zero => simp [hb] at hr
        | succ i =>
          have : Memory.readBytes m (a + 1) n = none := ih'.2 ⟨i, by omega, by rw [← hr]; congr 1; omega⟩
          simp [this] at hcs
      · rfl

/-- A buffer that holds a payload reads it back. -/
theorem Memory.readBytes_of_holds {m : Memory} {p : List Byte} (h : m.holds p) :
    Memory.readBytes m 0 p.length = some p :=
  Memory.readBytes_eq_some.2 ⟨rfl, fun i hi => by simpa using h i hi⟩

/-- Bytes just written are read back: what SEND hands to the transport is what it assembled (R134). -/
theorem Memory.readBytes_writeBytes (m : Memory) (a : Nat) (bs : List Byte) :
    Memory.readBytes (Memory.writeBytes m a bs) a bs.length = some bs :=
  Memory.readBytes_eq_some.2 ⟨rfl, fun _ hi => Memory.read_writeBytes m hi⟩

/-- RXP read as bytes where all of them have been written. -/
theorem rxpBytes_eq {m : Memory} {a : Nat} {p : List Byte} (h : ∀ i < p.length, Memory.read m (a + i) = p[i]?) :
    rxpBytes m a p.length = p := by
  induction p generalizing a with
  | nil => rfl
  | cons b p ih =>
    have hb : Memory.read m a = some b := by simpa using h 0 (by simp)
    have ht : ∀ i < p.length, Memory.read m (a + 1 + i) = p[i]? := fun i hi => by
      have := h (i + 1) (by simpa using hi)
      simpa [Nat.add_assoc, Nat.add_comm 1 i] using this
    simp [rxpBytes, rxpByte, hb, ih ht]

/-- The buffers after reset are in canonical form. -/
theorem reset_buffers_wf : State.reset.txp.wf ∧ State.reset.rxp.wf ∧ State.reset.txb.wf :=
  ⟨.nil, .nil, .nil⟩

end Sys2Proof.Machine
end

