-- ==== Sys2Proof/Laws/Commands.lean ====
section
/-! SUPPORT. Each step of a command, said once: everything it can answer. Later proofs cite these and unfold none of the
steps. -/

namespace Sys2Proof.Machine

/-! ## Shared operations -/

/-- FAULTS with a reason added holds that reason and the ones before (R43). -/
theorem mem_addFault (fs : List ModelFault) (q r : ModelFault) : r ∈ addFault fs q ↔ r = q ∨ r ∈ fs := by
  unfold addFault
  split
  · exact ⟨.inr, fun h => h.elim (fun e => e ▸ ‹_›) id⟩
  · simp [or_comm]

/-- FAULTS is a set: no reason stands in it twice (R43). -/
theorem nodup_addFault {fs : List ModelFault} (h : fs.Nodup) (r : ModelFault) : (addFault fs r).Nodup := by
  unfold addFault
  split
  · exact h
  · rename_i hr
    exact List.nodup_append.2 ⟨h, by simp, fun a ha b hb => by
      rw [List.mem_singleton.1 hb]
      rintro rfl
      exact hr ha⟩

/-- The one LENGTH that is too long is 65535 (R131). -/
theorem lengthTooLong_iff (s : State) : lengthTooLong s = true ↔ s.curLen.toNat = 65535 := by
  have h := s.curLen.isLt
  unfold lengthTooLong operandLength Config.maxPayload
  rw [decide_eq_true_iff]
  omega

theorem lengthTooLong_eq_false {s : State} : lengthTooLong s = false ↔ s.curLen.toNat ≤ 65534 := by
  have h := s.curLen.isLt
  rw [← Bool.not_eq_true, lengthTooLong_iff]
  omega

/-- LEN does not wrap for a legal length (R87). -/
theorem operandLen_toNat {s : State} (h : s.curLen.toNat ≤ 65534) : (operandLen s).toNat = s.curLen.toNat + 1 := by
  unfold operandLen
  rw [BitVec.toNat_add, BitVec.toNat_ofNat]
  omega

theorem operandPayload_eq_none {s : State} :
    operandPayload s = none ↔ ∃ i < s.curLen.toNat, Memory.read s.txp i = none := by
  simpa [operandPayload, operandLength] using
    Memory.readBytes_eq_none (m := s.txp) (a := 0) (n := s.curLen.toNat)

theorem operandPayload_eq_some {s : State} {p : List Byte} :
    operandPayload s = some p ↔ p.length = s.curLen.toNat ∧ s.txp.holds p := by
  unfold operandPayload operandLength Memory.holds
  rw [Memory.readBytes_eq_some]
  constructor <;> rintro ⟨h1, h2⟩ <;> refine ⟨h1, fun i hi => ?_⟩
  · simpa using h2 i (h1 ▸ hi)
  · simpa using h2 i (h1 ▸ hi)

/-! ## CSUM and SEND -/

/-- Everything the CS_RUN step can do (R115). -/
theorem csumRun_cases (s : State) :
    (s.curLen.toNat = 65535 ∧ csumRun s = finish false .txLengthError s) ∨
      (s.curLen.toNat ≤ 65534 ∧ operandPayload s = none ∧ csumRun s = blockFault .unwrittenTxp s) ∨
      ∃ p, s.curLen.toNat ≤ 65534 ∧ operandPayload s = some p ∧
        csumRun s = finish true .none (latchSum (checksum p) s) := by
  unfold csumRun
  split
  · rename_i h
    exact .inl ⟨(lengthTooLong_iff s).1 h, rfl⟩
  · rename_i h
    have hl := lengthTooLong_eq_false.1 (Bool.not_eq_true _ ▸ h)
    split
    · rename_i hp
      exact .inr (.inl ⟨hl, hp, rfl⟩)
    · rename_i p hp
      have hlen : (operandLen s).toNat = p.length + 1 := by
        rw [operandLen_toNat hl, (operandPayload_eq_some.1 hp).1]
      exact .inr (.inr ⟨p, hl, hp, by rw [accumulate_eq_checksum hlen]⟩)

/-- What the assembly leaves: TXB with the frame written at its start, and the frame as the request (R132 to R134). -/
theorem assemble_eq {s : State} {p : List Byte} (hl : s.curLen.toNat ≤ 65534) (hp : p.length = s.curLen.toNat) :
    assemble p s = txWriteRequest (frameOf p)
      { latchSum (checksum p) s with txb := Memory.writeBytes s.txb 0 (frameOf p), seq := .txWrite } := by
  have hlen : (operandLen s).toNat = p.length + 1 := by rw [operandLen_toNat hl, hp]
  have hn : operandLength s + 4 = (frameOf p).length := by rw [frameOf_length, hp, operandLength]
  have hf := frameBytes_eq_frameOf hlen
  rw [accumulate_eq_checksum hlen] at hf
  have hr := Memory.readBytes_writeBytes s.txb 0 (frameOf p)
  rw [← hn] at hr
  simp only [assemble, accumulate_eq_checksum hlen, hf, hr, Option.getD_some]

/-- Everything the TX_ASM step can do (R130 to R134). -/
theorem sendAssemble_cases (s : State) :
    (s.curLen.toNat = 65535 ∧ sendAssemble s = finish false .txLengthError { s with txWritten := 0#32 }) ∨
      (s.curLen.toNat ≤ 65534 ∧ operandPayload s = none ∧ sendAssemble s = blockFault .unwrittenTxp s) ∨
      ∃ p, s.curLen.toNat ≤ 65534 ∧ p.length = s.curLen.toNat ∧ s.txp.holds p ∧
        sendAssemble s = txWriteRequest (frameOf p)
          { latchSum (checksum p) s with txb := Memory.writeBytes s.txb 0 (frameOf p), seq := .txWrite } := by
  unfold sendAssemble
  split
  · rename_i h
    exact .inl ⟨(lengthTooLong_iff s).1 h, rfl⟩
  · rename_i h
    have hl := lengthTooLong_eq_false.1 (Bool.not_eq_true _ ▸ h)
    split
    · rename_i hp
      exact .inr (.inl ⟨hl, hp, rfl⟩)
    · rename_i p hp
      obtain ⟨h1, h2⟩ := operandPayload_eq_some.1 hp
      exact .inr (.inr ⟨p, hl, h1, h2, assemble_eq hl h1⟩)

/-- Everything the TX_WRITE step can do (R135 to R137). -/
theorem sendReply_cases (s : State) :
    ((∃ b, s.pending = some b) ∧ sendReply s = s) ∨
      ∃ ok, s.pending = none ∧ ok = wroteAll s.wreply s.curLen.toNat ∧
        sendReply s = finish ok (if ok then .none else .transmitIncomplete)
          { s with txWritten := txWrittenWord s.wreply } := by
  unfold sendReply State.replied
  cases hp : s.pending with
  | some b => exact .inl ⟨⟨b, rfl⟩, rfl⟩
  | none => exact .inr ⟨_, rfl, rfl, rfl⟩

/-! ## RECV -/

/-- Everything the RX_HDR step can do (R161). -/
theorem recvHeader_cases (s : State) :
    (s.rxq = [] ∧ recvHeader s = s) ∨ ∃ b q, s.rxq = b :: q ∧ recvHeader s =
      { s with
        rxq := q
        h0 := if s.idx = 0#17 then b else s.h0
        h1 := if s.idx = 1#17 then b else s.h1
        h2 := if s.idx = 2#17 then b else s.h2
        idx := s.idx + 1#17
        seq := if s.idx + 1#17 = 3#17 then .rxValidate else .rxHdr } := by
  unfold recvHeader
  split
  · exact .inl ⟨‹_›, rfl⟩
  · exact .inr ⟨_, _, ‹_›, rfl⟩

/-- Everything the RX_VALIDATE step can do (R163 to R168). -/
theorem recvValidate_cases (s : State) :
    (lengthOk s.params.availCheck s.rxq.length (s.h1 ++ s.h2) = false ∧ recvValidate s =
      finish false .lengthMismatch { recvMeasure s with rxValid := false, errFrame := false }) ∨
      (lengthOk s.params.availCheck s.rxq.length (s.h1 ++ s.h2) = true ∧ recvValidate s =
        { recvMeasure s with
          plen := (s.h1 ++ s.h2).setWidth 17 - 1#17
          rxPresent := true
          idx := 0#17
          seq := if (s.h1 ++ s.h2).setWidth 17 - 1#17 = 0#17 then .rxSum else .rxPay }) := by
  unfold recvValidate recvCheck
  cases h : lengthOk s.params.availCheck s.rxq.length (s.h1 ++ s.h2)
  · exact .inl ⟨rfl, if_neg (by simp [recvMeasure, rxAvail, h])⟩
  · exact .inr ⟨rfl, if_pos (by simp [recvMeasure, rxAvail, h])⟩

/-- Everything the RX_PAY step can do (R168). -/
theorem recvPayload_cases (s : State) :
    (s.rxq = [] ∧ recvPayload s = s) ∨ ∃ b q, s.rxq = b :: q ∧ recvPayload s =
      { s with
        rxq := q
        rxp := Memory.write s.rxp s.idx.toNat b
        idx := s.idx + 1#17
        seq := if s.idx + 1#17 = s.plen then .rxSum else .rxPay } := by
  unfold recvPayload
  split
  · exact .inl ⟨‹_›, rfl⟩
  · exact .inr ⟨_, _, ‹_›, rfl⟩

/-- Everything the RX_SUM step can do (R169). -/
theorem recvSum_cases (s : State) :
    (s.rxq = [] ∧ recvSum s = s) ∨ ∃ b q, s.rxq = b :: q ∧ recvSum s =
      { s with rxq := q, rxs := b, rxInfo := setRxSum s.rxInfo b, seq := .rxVerify } := by
  unfold recvSum
  split
  · exact .inl ⟨‹_›, rfl⟩
  · exact .inr ⟨_, _, ‹_›, rfl⟩

/-- Everything the RX_VERIFY step can do (R170 to R173). -/
theorem recvVerify_cases (s : State) :
    ∃ sum, sum = accumulate s.lenf (rxpBytes s.rxp 0 s.plen.toNat) ∧
      ((sum = s.rxs ∧ recvVerify s = finish true .none { latchSum sum s with rxValid := true, errFrame := false }) ∨
        (sum ≠ s.rxs ∧ recvVerify s = txWriteRequest Config.errorFrame
          { latchSum sum s with
            rxValid := false, result := false, err := .checksumMismatch, errFrame := true, seq := .rxErrf })) := by
  refine ⟨_, rfl, ?_⟩
  unfold recvVerify
  by_cases h : accumulate s.lenf (rxpBytes s.rxp 0 s.plen.toNat) = s.rxs
  · exact .inl ⟨h, if_pos h⟩
  · exact .inr ⟨h, if_neg h⟩

/-- Everything the RX_ERRF step can do (R174). -/
theorem recvErrf_cases (s : State) :
    ((∃ b, s.pending = some b) ∧ recvErrf s = s) ∨ (s.pending = none ∧ recvErrf s = { s with seq := .idle }) := by
  unfold recvErrf State.replied
  cases hp : s.pending with
  | some b => exact .inl ⟨⟨b, rfl⟩, rfl⟩
  | none => exact .inr ⟨rfl, rfl⟩

/-- The length validator says what R166 says, with LEN as the number {H1, H2} is (R89). -/
theorem lengthOk_iff {mode : AvailCheck} {avs : Nat} {len : Half} :
    lengthOk mode avs len = true ↔ 1 ≤ len.toNat ∧
      match mode with
      | .lowByte => avs = len.toNat % 256
      | .lowByteMod => avs % 256 = len.toNat % 256
      | .full => avs = len.toNat := by
  unfold lengthOk
  cases mode <;> simp

theorem lenOfHeader_toNat (h1 h2 : Byte) : (h1 ++ h2 : Half).toNat = h1.toNat * 256 + h2.toNat := append_toNat h1 h2

end Sys2Proof.Machine
end

