-- ==== Sys2Proof/Laws/Decode.lean ====
section
/-! SUPPORT. The fields of a command word as numbers (R80), and the fields of a packed word. -/

namespace Sys2Proof

theorem wordOp_toNat (w : Word) : (wordOp w).toNat = w.toNat % 16 := by
  simp [wordOp]

theorem wordRsv_toNat (w : Word) : (wordRsv w).toNat = w.toNat / 16 % 4096 := by
  simp [wordRsv, Nat.shiftRight_eq_div_pow]

theorem wordLength_toNat (w : Word) : (wordLength w).toNat = w.toNat / 65536 := by
  have := w.isLt
  simp only [wordLength, BitVec.extractLsb'_toNat, Nat.shiftRight_eq_div_pow]
  omega

/-- A packed word as a number: LENGTH above OP, RSV 0 between them (R80). -/
theorem packWord_toNat (length : Half) (op : BitVec 4) : (packWord length op).toNat = length.toNat * 65536 + op.toNat := by
  have h1 := length.isLt
  have h2 := op.isLt
  rw [packWord, BitVec.toNat_append, ← Nat.shiftLeft_add_eq_or_of_lt h2, BitVec.toNat_append,
    ← Nat.shiftLeft_add_eq_or_of_lt (by simp)]
  simp only [Nat.shiftLeft_eq, BitVec.toNat_ofNat]
  omega

@[simp] theorem wordOp_packWord (length : Half) (op : BitVec 4) : wordOp (packWord length op) = op := by
  have := op.isLt
  apply BitVec.eq_of_toNat_eq
  rw [wordOp_toNat, packWord_toNat]
  omega

@[simp] theorem wordRsv_packWord (length : Half) (op : BitVec 4) : wordRsv (packWord length op) = 0#12 := by
  have := op.isLt
  apply BitVec.eq_of_toNat_eq
  rw [wordRsv_toNat, packWord_toNat, BitVec.toNat_ofNat]
  omega

@[simp] theorem wordLength_packWord (length : Half) (op : BitVec 4) : wordLength (packWord length op) = length := by
  have h1 := length.isLt
  have h2 := op.isLt
  apply BitVec.eq_of_toNat_eq
  rw [wordLength_toNat, packWord_toNat]
  omega

end Sys2Proof
end

