-- ==== Sys2Proof/Laws/PerInstr.lean ====
section
/-! SUPPORT. Statements made once per command: the word each command is encoded as passes the three checks of R83. -/

namespace Sys2Proof.Laws

/-- The command's word is legal: OP known, RSV 0, and LENGTH 0 for RECV (R83). -/
def LegalEncoding.Statement (i : Instr) : Prop := wordLegal (encode i) = true

theorem LegalEncoding.send (length : Half) : LegalEncoding.Statement (.send length) := by
  simp [LegalEncoding.Statement, encode, wordLegal, opKnown, rsvClear, recvLengthClear]

theorem LegalEncoding.recv : LegalEncoding.Statement .recv := by
  simp [LegalEncoding.Statement, encode, wordLegal, opKnown, rsvClear, recvLengthClear]

theorem LegalEncoding.csum (length : Half) : LegalEncoding.Statement (.csum length) := by
  simp [LegalEncoding.Statement, encode, wordLegal, opKnown, rsvClear, recvLengthClear]

end Sys2Proof.Laws
end

