-- ==== Sys2Proof/Laws/State.lean ====
section
/-! SUPPORT. One lemma per field per update, true by rfl: no later proof unfolds a record update. -/

namespace Sys2Proof.Machine

/-! ### hostFault: a model fault of the host (R217) -/

@[simp] theorem hostFault_params (r : ModelFault) (s : State) : (hostFault r s).params = s.params := rfl
@[simp] theorem hostFault_seq (r : ModelFault) (s : State) : (hostFault r s).seq = s.seq := rfl
@[simp] theorem hostFault_lastOp (r : ModelFault) (s : State) : (hostFault r s).lastOp = s.lastOp := rfl
@[simp] theorem hostFault_result (r : ModelFault) (s : State) : (hostFault r s).result = s.result := rfl
@[simp] theorem hostFault_rxValid (r : ModelFault) (s : State) : (hostFault r s).rxValid = s.rxValid := rfl
@[simp] theorem hostFault_rxPresent (r : ModelFault) (s : State) : (hostFault r s).rxPresent = s.rxPresent := rfl
@[simp] theorem hostFault_sumValid (r : ModelFault) (s : State) : (hostFault r s).sumValid = s.sumValid := rfl
@[simp] theorem hostFault_errFrame (r : ModelFault) (s : State) : (hostFault r s).errFrame = s.errFrame := rfl
@[simp] theorem hostFault_err (r : ModelFault) (s : State) : (hostFault r s).err = s.err := rfl
@[simp] theorem hostFault_rxLen (r : ModelFault) (s : State) : (hostFault r s).rxLen = s.rxLen := rfl
@[simp] theorem hostFault_rxInfo (r : ModelFault) (s : State) : (hostFault r s).rxInfo = s.rxInfo := rfl
@[simp] theorem hostFault_lastSum (r : ModelFault) (s : State) : (hostFault r s).lastSum = s.lastSum := rfl
@[simp] theorem hostFault_txWritten (r : ModelFault) (s : State) : (hostFault r s).txWritten = s.txWritten := rfl
@[simp] theorem hostFault_txp (r : ModelFault) (s : State) : (hostFault r s).txp = s.txp := rfl
@[simp] theorem hostFault_rxp (r : ModelFault) (s : State) : (hostFault r s).rxp = s.rxp := rfl
@[simp] theorem hostFault_txb (r : ModelFault) (s : State) : (hostFault r s).txb = s.txb := rfl
@[simp] theorem hostFault_acc (r : ModelFault) (s : State) : (hostFault r s).acc = s.acc := rfl
@[simp] theorem hostFault_curLen (r : ModelFault) (s : State) : (hostFault r s).curLen = s.curLen := rfl
@[simp] theorem hostFault_idx (r : ModelFault) (s : State) : (hostFault r s).idx = s.idx := rfl
@[simp] theorem hostFault_h0 (r : ModelFault) (s : State) : (hostFault r s).h0 = s.h0 := rfl
@[simp] theorem hostFault_h1 (r : ModelFault) (s : State) : (hostFault r s).h1 = s.h1 := rfl
@[simp] theorem hostFault_h2 (r : ModelFault) (s : State) : (hostFault r s).h2 = s.h2 := rfl
@[simp] theorem hostFault_lenf (r : ModelFault) (s : State) : (hostFault r s).lenf = s.lenf := rfl
@[simp] theorem hostFault_plen (r : ModelFault) (s : State) : (hostFault r s).plen = s.plen := rfl
@[simp] theorem hostFault_avs (r : ModelFault) (s : State) : (hostFault r s).avs = s.avs := rfl
@[simp] theorem hostFault_rxs (r : ModelFault) (s : State) : (hostFault r s).rxs = s.rxs := rfl
@[simp] theorem hostFault_wreply (r : ModelFault) (s : State) : (hostFault r s).wreply = s.wreply := rfl
@[simp] theorem hostFault_rxq (r : ModelFault) (s : State) : (hostFault r s).rxq = s.rxq := rfl
@[simp] theorem hostFault_txs (r : ModelFault) (s : State) : (hostFault r s).txs = s.txs := rfl
@[simp] theorem hostFault_pending (r : ModelFault) (s : State) : (hostFault r s).pending = s.pending := rfl
@[simp] theorem hostFault_abandoned (r : ModelFault) (s : State) : (hostFault r s).abandoned = s.abandoned := rfl
@[simp] theorem hostFault_faults (r : ModelFault) (s : State) : (hostFault r s).faults = addFault s.faults r := rfl
@[simp] theorem hostFault_hostStopped (r : ModelFault) (s : State) : (hostFault r s).hostStopped = true := rfl
@[simp] theorem hostFault_blockStopped (r : ModelFault) (s : State) : (hostFault r s).blockStopped = s.blockStopped := rfl
@[simp] theorem hostFault_readData (r : ModelFault) (s : State) : (hostFault r s).readData = s.readData := rfl
@[simp] theorem hostFault_draws (r : ModelFault) (s : State) : (hostFault r s).draws = s.draws := rfl
@[simp] theorem hostFault_moves (r : ModelFault) (s : State) : (hostFault r s).moves = s.moves := rfl

/-! ### blockFault: a model fault of the block (R217) -/

@[simp] theorem blockFault_params (r : ModelFault) (s : State) : (blockFault r s).params = s.params := rfl
@[simp] theorem blockFault_seq (r : ModelFault) (s : State) : (blockFault r s).seq = s.seq := rfl
@[simp] theorem blockFault_lastOp (r : ModelFault) (s : State) : (blockFault r s).lastOp = s.lastOp := rfl
@[simp] theorem blockFault_result (r : ModelFault) (s : State) : (blockFault r s).result = s.result := rfl
@[simp] theorem blockFault_rxValid (r : ModelFault) (s : State) : (blockFault r s).rxValid = s.rxValid := rfl
@[simp] theorem blockFault_rxPresent (r : ModelFault) (s : State) : (blockFault r s).rxPresent = s.rxPresent := rfl
@[simp] theorem blockFault_sumValid (r : ModelFault) (s : State) : (blockFault r s).sumValid = s.sumValid := rfl
@[simp] theorem blockFault_errFrame (r : ModelFault) (s : State) : (blockFault r s).errFrame = s.errFrame := rfl
@[simp] theorem blockFault_err (r : ModelFault) (s : State) : (blockFault r s).err = s.err := rfl
@[simp] theorem blockFault_rxLen (r : ModelFault) (s : State) : (blockFault r s).rxLen = s.rxLen := rfl
@[simp] theorem blockFault_rxInfo (r : ModelFault) (s : State) : (blockFault r s).rxInfo = s.rxInfo := rfl
@[simp] theorem blockFault_lastSum (r : ModelFault) (s : State) : (blockFault r s).lastSum = s.lastSum := rfl
@[simp] theorem blockFault_txWritten (r : ModelFault) (s : State) : (blockFault r s).txWritten = s.txWritten := rfl
@[simp] theorem blockFault_txp (r : ModelFault) (s : State) : (blockFault r s).txp = s.txp := rfl
@[simp] theorem blockFault_rxp (r : ModelFault) (s : State) : (blockFault r s).rxp = s.rxp := rfl
@[simp] theorem blockFault_txb (r : ModelFault) (s : State) : (blockFault r s).txb = s.txb := rfl
@[simp] theorem blockFault_acc (r : ModelFault) (s : State) : (blockFault r s).acc = s.acc := rfl
@[simp] theorem blockFault_curLen (r : ModelFault) (s : State) : (blockFault r s).curLen = s.curLen := rfl
@[simp] theorem blockFault_idx (r : ModelFault) (s : State) : (blockFault r s).idx = s.idx := rfl
@[simp] theorem blockFault_h0 (r : ModelFault) (s : State) : (blockFault r s).h0 = s.h0 := rfl
@[simp] theorem blockFault_h1 (r : ModelFault) (s : State) : (blockFault r s).h1 = s.h1 := rfl
@[simp] theorem blockFault_h2 (r : ModelFault) (s : State) : (blockFault r s).h2 = s.h2 := rfl
@[simp] theorem blockFault_lenf (r : ModelFault) (s : State) : (blockFault r s).lenf = s.lenf := rfl
@[simp] theorem blockFault_plen (r : ModelFault) (s : State) : (blockFault r s).plen = s.plen := rfl
@[simp] theorem blockFault_avs (r : ModelFault) (s : State) : (blockFault r s).avs = s.avs := rfl
@[simp] theorem blockFault_rxs (r : ModelFault) (s : State) : (blockFault r s).rxs = s.rxs := rfl
@[simp] theorem blockFault_wreply (r : ModelFault) (s : State) : (blockFault r s).wreply = s.wreply := rfl
@[simp] theorem blockFault_rxq (r : ModelFault) (s : State) : (blockFault r s).rxq = s.rxq := rfl
@[simp] theorem blockFault_txs (r : ModelFault) (s : State) : (blockFault r s).txs = s.txs := rfl
@[simp] theorem blockFault_pending (r : ModelFault) (s : State) : (blockFault r s).pending = s.pending := rfl
@[simp] theorem blockFault_abandoned (r : ModelFault) (s : State) : (blockFault r s).abandoned = s.abandoned := rfl
@[simp] theorem blockFault_faults (r : ModelFault) (s : State) : (blockFault r s).faults = addFault s.faults r := rfl
@[simp] theorem blockFault_hostStopped (r : ModelFault) (s : State) : (blockFault r s).hostStopped = s.hostStopped := rfl
@[simp] theorem blockFault_blockStopped (r : ModelFault) (s : State) : (blockFault r s).blockStopped = true := rfl
@[simp] theorem blockFault_readData (r : ModelFault) (s : State) : (blockFault r s).readData = s.readData := rfl
@[simp] theorem blockFault_draws (r : ModelFault) (s : State) : (blockFault r s).draws = s.draws := rfl
@[simp] theorem blockFault_moves (r : ModelFault) (s : State) : (blockFault r s).moves = s.moves := rfl

/-! ### accept: the accept step (R84) -/

@[simp] theorem accept_params (op : LastOp) (q : Seq) (s : State) : (accept op q s).params = s.params := rfl
@[simp] theorem accept_seq (op : LastOp) (q : Seq) (s : State) : (accept op q s).seq = q := rfl
@[simp] theorem accept_lastOp (op : LastOp) (q : Seq) (s : State) : (accept op q s).lastOp = op := rfl
@[simp] theorem accept_result (op : LastOp) (q : Seq) (s : State) : (accept op q s).result = false := rfl
@[simp] theorem accept_rxValid (op : LastOp) (q : Seq) (s : State) : (accept op q s).rxValid = s.rxValid := rfl
@[simp] theorem accept_rxPresent (op : LastOp) (q : Seq) (s : State) : (accept op q s).rxPresent = s.rxPresent := rfl
@[simp] theorem accept_sumValid (op : LastOp) (q : Seq) (s : State) : (accept op q s).sumValid = s.sumValid := rfl
@[simp] theorem accept_errFrame (op : LastOp) (q : Seq) (s : State) : (accept op q s).errFrame = s.errFrame := rfl
@[simp] theorem accept_err (op : LastOp) (q : Seq) (s : State) : (accept op q s).err = .none := rfl
@[simp] theorem accept_rxLen (op : LastOp) (q : Seq) (s : State) : (accept op q s).rxLen = s.rxLen := rfl
@[simp] theorem accept_rxInfo (op : LastOp) (q : Seq) (s : State) : (accept op q s).rxInfo = s.rxInfo := rfl
@[simp] theorem accept_lastSum (op : LastOp) (q : Seq) (s : State) : (accept op q s).lastSum = s.lastSum := rfl
@[simp] theorem accept_txWritten (op : LastOp) (q : Seq) (s : State) : (accept op q s).txWritten = s.txWritten := rfl
@[simp] theorem accept_txp (op : LastOp) (q : Seq) (s : State) : (accept op q s).txp = s.txp := rfl
@[simp] theorem accept_rxp (op : LastOp) (q : Seq) (s : State) : (accept op q s).rxp = s.rxp := rfl
@[simp] theorem accept_txb (op : LastOp) (q : Seq) (s : State) : (accept op q s).txb = s.txb := rfl
@[simp] theorem accept_acc (op : LastOp) (q : Seq) (s : State) : (accept op q s).acc = s.acc := rfl
@[simp] theorem accept_curLen (op : LastOp) (q : Seq) (s : State) : (accept op q s).curLen = s.curLen := rfl
@[simp] theorem accept_idx (op : LastOp) (q : Seq) (s : State) : (accept op q s).idx = s.idx := rfl
@[simp] theorem accept_h0 (op : LastOp) (q : Seq) (s : State) : (accept op q s).h0 = s.h0 := rfl
@[simp] theorem accept_h1 (op : LastOp) (q : Seq) (s : State) : (accept op q s).h1 = s.h1 := rfl
@[simp] theorem accept_h2 (op : LastOp) (q : Seq) (s : State) : (accept op q s).h2 = s.h2 := rfl
@[simp] theorem accept_lenf (op : LastOp) (q : Seq) (s : State) : (accept op q s).lenf = s.lenf := rfl
@[simp] theorem accept_plen (op : LastOp) (q : Seq) (s : State) : (accept op q s).plen = s.plen := rfl
@[simp] theorem accept_avs (op : LastOp) (q : Seq) (s : State) : (accept op q s).avs = s.avs := rfl
@[simp] theorem accept_rxs (op : LastOp) (q : Seq) (s : State) : (accept op q s).rxs = s.rxs := rfl
@[simp] theorem accept_wreply (op : LastOp) (q : Seq) (s : State) : (accept op q s).wreply = s.wreply := rfl
@[simp] theorem accept_rxq (op : LastOp) (q : Seq) (s : State) : (accept op q s).rxq = s.rxq := rfl
@[simp] theorem accept_txs (op : LastOp) (q : Seq) (s : State) : (accept op q s).txs = s.txs := rfl
@[simp] theorem accept_pending (op : LastOp) (q : Seq) (s : State) : (accept op q s).pending = s.pending := rfl
@[simp] theorem accept_abandoned (op : LastOp) (q : Seq) (s : State) : (accept op q s).abandoned = s.abandoned := rfl
@[simp] theorem accept_faults (op : LastOp) (q : Seq) (s : State) : (accept op q s).faults = s.faults := rfl
@[simp] theorem accept_hostStopped (op : LastOp) (q : Seq) (s : State) : (accept op q s).hostStopped = s.hostStopped := rfl
@[simp] theorem accept_blockStopped (op : LastOp) (q : Seq) (s : State) : (accept op q s).blockStopped = s.blockStopped := rfl
@[simp] theorem accept_readData (op : LastOp) (q : Seq) (s : State) : (accept op q s).readData = s.readData := rfl
@[simp] theorem accept_draws (op : LastOp) (q : Seq) (s : State) : (accept op q s).draws = s.draws := rfl
@[simp] theorem accept_moves (op : LastOp) (q : Seq) (s : State) : (accept op q s).moves = s.moves := rfl

/-! ### reject: a rejected word (R216) -/

@[simp] theorem reject_params (s : State) : (reject s).params = s.params := rfl
@[simp] theorem reject_seq (s : State) : (reject s).seq = s.seq := rfl
@[simp] theorem reject_lastOp (s : State) : (reject s).lastOp = .rejected := rfl
@[simp] theorem reject_result (s : State) : (reject s).result = false := rfl
@[simp] theorem reject_rxValid (s : State) : (reject s).rxValid = s.rxValid := rfl
@[simp] theorem reject_rxPresent (s : State) : (reject s).rxPresent = s.rxPresent := rfl
@[simp] theorem reject_sumValid (s : State) : (reject s).sumValid = s.sumValid := rfl
@[simp] theorem reject_errFrame (s : State) : (reject s).errFrame = s.errFrame := rfl
@[simp] theorem reject_err (s : State) : (reject s).err = .illegalCommand := rfl
@[simp] theorem reject_rxLen (s : State) : (reject s).rxLen = s.rxLen := rfl
@[simp] theorem reject_rxInfo (s : State) : (reject s).rxInfo = s.rxInfo := rfl
@[simp] theorem reject_lastSum (s : State) : (reject s).lastSum = s.lastSum := rfl
@[simp] theorem reject_txWritten (s : State) : (reject s).txWritten = s.txWritten := rfl
@[simp] theorem reject_txp (s : State) : (reject s).txp = s.txp := rfl
@[simp] theorem reject_rxp (s : State) : (reject s).rxp = s.rxp := rfl
@[simp] theorem reject_txb (s : State) : (reject s).txb = s.txb := rfl
@[simp] theorem reject_acc (s : State) : (reject s).acc = s.acc := rfl
@[simp] theorem reject_curLen (s : State) : (reject s).curLen = s.curLen := rfl
@[simp] theorem reject_idx (s : State) : (reject s).idx = s.idx := rfl
@[simp] theorem reject_h0 (s : State) : (reject s).h0 = s.h0 := rfl
@[simp] theorem reject_h1 (s : State) : (reject s).h1 = s.h1 := rfl
@[simp] theorem reject_h2 (s : State) : (reject s).h2 = s.h2 := rfl
@[simp] theorem reject_lenf (s : State) : (reject s).lenf = s.lenf := rfl
@[simp] theorem reject_plen (s : State) : (reject s).plen = s.plen := rfl
@[simp] theorem reject_avs (s : State) : (reject s).avs = s.avs := rfl
@[simp] theorem reject_rxs (s : State) : (reject s).rxs = s.rxs := rfl
@[simp] theorem reject_wreply (s : State) : (reject s).wreply = s.wreply := rfl
@[simp] theorem reject_rxq (s : State) : (reject s).rxq = s.rxq := rfl
@[simp] theorem reject_txs (s : State) : (reject s).txs = s.txs := rfl
@[simp] theorem reject_pending (s : State) : (reject s).pending = s.pending := rfl
@[simp] theorem reject_abandoned (s : State) : (reject s).abandoned = s.abandoned := rfl
@[simp] theorem reject_faults (s : State) : (reject s).faults = s.faults := rfl
@[simp] theorem reject_hostStopped (s : State) : (reject s).hostStopped = s.hostStopped := rfl
@[simp] theorem reject_blockStopped (s : State) : (reject s).blockStopped = s.blockStopped := rfl
@[simp] theorem reject_readData (s : State) : (reject s).readData = s.readData := rfl
@[simp] theorem reject_draws (s : State) : (reject s).draws = s.draws := rfl
@[simp] theorem reject_moves (s : State) : (reject s).moves = s.moves := rfl

/-! ### finish: the end of a command (R210) -/

@[simp] theorem finish_params (ok : Bool) (e : Err) (s : State) : (finish ok e s).params = s.params := rfl
@[simp] theorem finish_seq (ok : Bool) (e : Err) (s : State) : (finish ok e s).seq = .idle := rfl
@[simp] theorem finish_lastOp (ok : Bool) (e : Err) (s : State) : (finish ok e s).lastOp = s.lastOp := rfl
@[simp] theorem finish_result (ok : Bool) (e : Err) (s : State) : (finish ok e s).result = ok := rfl
@[simp] theorem finish_rxValid (ok : Bool) (e : Err) (s : State) : (finish ok e s).rxValid = s.rxValid := rfl
@[simp] theorem finish_rxPresent (ok : Bool) (e : Err) (s : State) : (finish ok e s).rxPresent = s.rxPresent := rfl
@[simp] theorem finish_sumValid (ok : Bool) (e : Err) (s : State) : (finish ok e s).sumValid = s.sumValid := rfl
@[simp] theorem finish_errFrame (ok : Bool) (e : Err) (s : State) : (finish ok e s).errFrame = s.errFrame := rfl
@[simp] theorem finish_err (ok : Bool) (e : Err) (s : State) : (finish ok e s).err = e := rfl
@[simp] theorem finish_rxLen (ok : Bool) (e : Err) (s : State) : (finish ok e s).rxLen = s.rxLen := rfl
@[simp] theorem finish_rxInfo (ok : Bool) (e : Err) (s : State) : (finish ok e s).rxInfo = s.rxInfo := rfl
@[simp] theorem finish_lastSum (ok : Bool) (e : Err) (s : State) : (finish ok e s).lastSum = s.lastSum := rfl
@[simp] theorem finish_txWritten (ok : Bool) (e : Err) (s : State) : (finish ok e s).txWritten = s.txWritten := rfl
@[simp] theorem finish_txp (ok : Bool) (e : Err) (s : State) : (finish ok e s).txp = s.txp := rfl
@[simp] theorem finish_rxp (ok : Bool) (e : Err) (s : State) : (finish ok e s).rxp = s.rxp := rfl
@[simp] theorem finish_txb (ok : Bool) (e : Err) (s : State) : (finish ok e s).txb = s.txb := rfl
@[simp] theorem finish_acc (ok : Bool) (e : Err) (s : State) : (finish ok e s).acc = s.acc := rfl
@[simp] theorem finish_curLen (ok : Bool) (e : Err) (s : State) : (finish ok e s).curLen = s.curLen := rfl
@[simp] theorem finish_idx (ok : Bool) (e : Err) (s : State) : (finish ok e s).idx = s.idx := rfl
@[simp] theorem finish_h0 (ok : Bool) (e : Err) (s : State) : (finish ok e s).h0 = s.h0 := rfl
@[simp] theorem finish_h1 (ok : Bool) (e : Err) (s : State) : (finish ok e s).h1 = s.h1 := rfl
@[simp] theorem finish_h2 (ok : Bool) (e : Err) (s : State) : (finish ok e s).h2 = s.h2 := rfl
@[simp] theorem finish_lenf (ok : Bool) (e : Err) (s : State) : (finish ok e s).lenf = s.lenf := rfl
@[simp] theorem finish_plen (ok : Bool) (e : Err) (s : State) : (finish ok e s).plen = s.plen := rfl
@[simp] theorem finish_avs (ok : Bool) (e : Err) (s : State) : (finish ok e s).avs = s.avs := rfl
@[simp] theorem finish_rxs (ok : Bool) (e : Err) (s : State) : (finish ok e s).rxs = s.rxs := rfl
@[simp] theorem finish_wreply (ok : Bool) (e : Err) (s : State) : (finish ok e s).wreply = s.wreply := rfl
@[simp] theorem finish_rxq (ok : Bool) (e : Err) (s : State) : (finish ok e s).rxq = s.rxq := rfl
@[simp] theorem finish_txs (ok : Bool) (e : Err) (s : State) : (finish ok e s).txs = s.txs := rfl
@[simp] theorem finish_pending (ok : Bool) (e : Err) (s : State) : (finish ok e s).pending = s.pending := rfl
@[simp] theorem finish_abandoned (ok : Bool) (e : Err) (s : State) : (finish ok e s).abandoned = s.abandoned := rfl
@[simp] theorem finish_faults (ok : Bool) (e : Err) (s : State) : (finish ok e s).faults = s.faults := rfl
@[simp] theorem finish_hostStopped (ok : Bool) (e : Err) (s : State) : (finish ok e s).hostStopped = s.hostStopped := rfl
@[simp] theorem finish_blockStopped (ok : Bool) (e : Err) (s : State) : (finish ok e s).blockStopped = s.blockStopped := rfl
@[simp] theorem finish_readData (ok : Bool) (e : Err) (s : State) : (finish ok e s).readData = s.readData := rfl
@[simp] theorem finish_draws (ok : Bool) (e : Err) (s : State) : (finish ok e s).draws = s.draws := rfl
@[simp] theorem finish_moves (ok : Bool) (e : Err) (s : State) : (finish ok e s).moves = s.moves := rfl

/-! ### latchSum: a computed checksum (R36) -/

@[simp] theorem latchSum_params (x : Byte) (s : State) : (latchSum x s).params = s.params := rfl
@[simp] theorem latchSum_seq (x : Byte) (s : State) : (latchSum x s).seq = s.seq := rfl
@[simp] theorem latchSum_lastOp (x : Byte) (s : State) : (latchSum x s).lastOp = s.lastOp := rfl
@[simp] theorem latchSum_result (x : Byte) (s : State) : (latchSum x s).result = s.result := rfl
@[simp] theorem latchSum_rxValid (x : Byte) (s : State) : (latchSum x s).rxValid = s.rxValid := rfl
@[simp] theorem latchSum_rxPresent (x : Byte) (s : State) : (latchSum x s).rxPresent = s.rxPresent := rfl
@[simp] theorem latchSum_sumValid (x : Byte) (s : State) : (latchSum x s).sumValid = true := rfl
@[simp] theorem latchSum_errFrame (x : Byte) (s : State) : (latchSum x s).errFrame = s.errFrame := rfl
@[simp] theorem latchSum_err (x : Byte) (s : State) : (latchSum x s).err = s.err := rfl
@[simp] theorem latchSum_rxLen (x : Byte) (s : State) : (latchSum x s).rxLen = s.rxLen := rfl
@[simp] theorem latchSum_rxInfo (x : Byte) (s : State) : (latchSum x s).rxInfo = s.rxInfo := rfl
@[simp] theorem latchSum_lastSum (x : Byte) (s : State) : (latchSum x s).lastSum = x.setWidth 32 := rfl
@[simp] theorem latchSum_txWritten (x : Byte) (s : State) : (latchSum x s).txWritten = s.txWritten := rfl
@[simp] theorem latchSum_txp (x : Byte) (s : State) : (latchSum x s).txp = s.txp := rfl
@[simp] theorem latchSum_rxp (x : Byte) (s : State) : (latchSum x s).rxp = s.rxp := rfl
@[simp] theorem latchSum_txb (x : Byte) (s : State) : (latchSum x s).txb = s.txb := rfl
@[simp] theorem latchSum_acc (x : Byte) (s : State) : (latchSum x s).acc = x := rfl
@[simp] theorem latchSum_curLen (x : Byte) (s : State) : (latchSum x s).curLen = s.curLen := rfl
@[simp] theorem latchSum_idx (x : Byte) (s : State) : (latchSum x s).idx = s.idx := rfl
@[simp] theorem latchSum_h0 (x : Byte) (s : State) : (latchSum x s).h0 = s.h0 := rfl
@[simp] theorem latchSum_h1 (x : Byte) (s : State) : (latchSum x s).h1 = s.h1 := rfl
@[simp] theorem latchSum_h2 (x : Byte) (s : State) : (latchSum x s).h2 = s.h2 := rfl
@[simp] theorem latchSum_lenf (x : Byte) (s : State) : (latchSum x s).lenf = s.lenf := rfl
@[simp] theorem latchSum_plen (x : Byte) (s : State) : (latchSum x s).plen = s.plen := rfl
@[simp] theorem latchSum_avs (x : Byte) (s : State) : (latchSum x s).avs = s.avs := rfl
@[simp] theorem latchSum_rxs (x : Byte) (s : State) : (latchSum x s).rxs = s.rxs := rfl
@[simp] theorem latchSum_wreply (x : Byte) (s : State) : (latchSum x s).wreply = s.wreply := rfl
@[simp] theorem latchSum_rxq (x : Byte) (s : State) : (latchSum x s).rxq = s.rxq := rfl
@[simp] theorem latchSum_txs (x : Byte) (s : State) : (latchSum x s).txs = s.txs := rfl
@[simp] theorem latchSum_pending (x : Byte) (s : State) : (latchSum x s).pending = s.pending := rfl
@[simp] theorem latchSum_abandoned (x : Byte) (s : State) : (latchSum x s).abandoned = s.abandoned := rfl
@[simp] theorem latchSum_faults (x : Byte) (s : State) : (latchSum x s).faults = s.faults := rfl
@[simp] theorem latchSum_hostStopped (x : Byte) (s : State) : (latchSum x s).hostStopped = s.hostStopped := rfl
@[simp] theorem latchSum_blockStopped (x : Byte) (s : State) : (latchSum x s).blockStopped = s.blockStopped := rfl
@[simp] theorem latchSum_readData (x : Byte) (s : State) : (latchSum x s).readData = s.readData := rfl
@[simp] theorem latchSum_draws (x : Byte) (s : State) : (latchSum x s).draws = s.draws := rfl
@[simp] theorem latchSum_moves (x : Byte) (s : State) : (latchSum x s).moves = s.moves := rfl

/-! ### txWriteRequest: a write request (R63) -/

@[simp] theorem txWriteRequest_params (b : List Byte) (s : State) : (txWriteRequest b s).params = s.params := rfl
@[simp] theorem txWriteRequest_seq (b : List Byte) (s : State) : (txWriteRequest b s).seq = s.seq := rfl
@[simp] theorem txWriteRequest_lastOp (b : List Byte) (s : State) : (txWriteRequest b s).lastOp = s.lastOp := rfl
@[simp] theorem txWriteRequest_result (b : List Byte) (s : State) : (txWriteRequest b s).result = s.result := rfl
@[simp] theorem txWriteRequest_rxValid (b : List Byte) (s : State) : (txWriteRequest b s).rxValid = s.rxValid := rfl
@[simp] theorem txWriteRequest_rxPresent (b : List Byte) (s : State) : (txWriteRequest b s).rxPresent = s.rxPresent := rfl
@[simp] theorem txWriteRequest_sumValid (b : List Byte) (s : State) : (txWriteRequest b s).sumValid = s.sumValid := rfl
@[simp] theorem txWriteRequest_errFrame (b : List Byte) (s : State) : (txWriteRequest b s).errFrame = s.errFrame := rfl
@[simp] theorem txWriteRequest_err (b : List Byte) (s : State) : (txWriteRequest b s).err = s.err := rfl
@[simp] theorem txWriteRequest_rxLen (b : List Byte) (s : State) : (txWriteRequest b s).rxLen = s.rxLen := rfl
@[simp] theorem txWriteRequest_rxInfo (b : List Byte) (s : State) : (txWriteRequest b s).rxInfo = s.rxInfo := rfl
@[simp] theorem txWriteRequest_lastSum (b : List Byte) (s : State) : (txWriteRequest b s).lastSum = s.lastSum := rfl
@[simp] theorem txWriteRequest_txWritten (b : List Byte) (s : State) : (txWriteRequest b s).txWritten = s.txWritten := rfl
@[simp] theorem txWriteRequest_txp (b : List Byte) (s : State) : (txWriteRequest b s).txp = s.txp := rfl
@[simp] theorem txWriteRequest_rxp (b : List Byte) (s : State) : (txWriteRequest b s).rxp = s.rxp := rfl
@[simp] theorem txWriteRequest_txb (b : List Byte) (s : State) : (txWriteRequest b s).txb = s.txb := rfl
@[simp] theorem txWriteRequest_acc (b : List Byte) (s : State) : (txWriteRequest b s).acc = s.acc := rfl
@[simp] theorem txWriteRequest_curLen (b : List Byte) (s : State) : (txWriteRequest b s).curLen = s.curLen := rfl
@[simp] theorem txWriteRequest_idx (b : List Byte) (s : State) : (txWriteRequest b s).idx = s.idx := rfl
@[simp] theorem txWriteRequest_h0 (b : List Byte) (s : State) : (txWriteRequest b s).h0 = s.h0 := rfl
@[simp] theorem txWriteRequest_h1 (b : List Byte) (s : State) : (txWriteRequest b s).h1 = s.h1 := rfl
@[simp] theorem txWriteRequest_h2 (b : List Byte) (s : State) : (txWriteRequest b s).h2 = s.h2 := rfl
@[simp] theorem txWriteRequest_lenf (b : List Byte) (s : State) : (txWriteRequest b s).lenf = s.lenf := rfl
@[simp] theorem txWriteRequest_plen (b : List Byte) (s : State) : (txWriteRequest b s).plen = s.plen := rfl
@[simp] theorem txWriteRequest_avs (b : List Byte) (s : State) : (txWriteRequest b s).avs = s.avs := rfl
@[simp] theorem txWriteRequest_rxs (b : List Byte) (s : State) : (txWriteRequest b s).rxs = s.rxs := rfl
@[simp] theorem txWriteRequest_wreply (b : List Byte) (s : State) : (txWriteRequest b s).wreply = s.wreply := rfl
@[simp] theorem txWriteRequest_rxq (b : List Byte) (s : State) : (txWriteRequest b s).rxq = s.rxq := rfl
@[simp] theorem txWriteRequest_txs (b : List Byte) (s : State) : (txWriteRequest b s).txs = s.txs := rfl
@[simp] theorem txWriteRequest_pending (b : List Byte) (s : State) : (txWriteRequest b s).pending = some b := rfl
@[simp] theorem txWriteRequest_abandoned (b : List Byte) (s : State) : (txWriteRequest b s).abandoned = s.abandoned := rfl
@[simp] theorem txWriteRequest_faults (b : List Byte) (s : State) : (txWriteRequest b s).faults = s.faults := rfl
@[simp] theorem txWriteRequest_hostStopped (b : List Byte) (s : State) : (txWriteRequest b s).hostStopped = s.hostStopped := rfl
@[simp] theorem txWriteRequest_blockStopped (b : List Byte) (s : State) : (txWriteRequest b s).blockStopped = s.blockStopped := rfl
@[simp] theorem txWriteRequest_readData (b : List Byte) (s : State) : (txWriteRequest b s).readData = s.readData := rfl
@[simp] theorem txWriteRequest_draws (b : List Byte) (s : State) : (txWriteRequest b s).draws = s.draws := rfl
@[simp] theorem txWriteRequest_moves (b : List Byte) (s : State) : (txWriteRequest b s).moves = s.moves := rfl

/-! ### deliver: a delivery to TXS (R64) -/

@[simp] theorem deliver_params (b : List Byte) (s : State) : (deliver b s).params = s.params := rfl
@[simp] theorem deliver_seq (b : List Byte) (s : State) : (deliver b s).seq = s.seq := rfl
@[simp] theorem deliver_lastOp (b : List Byte) (s : State) : (deliver b s).lastOp = s.lastOp := rfl
@[simp] theorem deliver_result (b : List Byte) (s : State) : (deliver b s).result = s.result := rfl
@[simp] theorem deliver_rxValid (b : List Byte) (s : State) : (deliver b s).rxValid = s.rxValid := rfl
@[simp] theorem deliver_rxPresent (b : List Byte) (s : State) : (deliver b s).rxPresent = s.rxPresent := rfl
@[simp] theorem deliver_sumValid (b : List Byte) (s : State) : (deliver b s).sumValid = s.sumValid := rfl
@[simp] theorem deliver_errFrame (b : List Byte) (s : State) : (deliver b s).errFrame = s.errFrame := rfl
@[simp] theorem deliver_err (b : List Byte) (s : State) : (deliver b s).err = s.err := rfl
@[simp] theorem deliver_rxLen (b : List Byte) (s : State) : (deliver b s).rxLen = s.rxLen := rfl
@[simp] theorem deliver_rxInfo (b : List Byte) (s : State) : (deliver b s).rxInfo = s.rxInfo := rfl
@[simp] theorem deliver_lastSum (b : List Byte) (s : State) : (deliver b s).lastSum = s.lastSum := rfl
@[simp] theorem deliver_txWritten (b : List Byte) (s : State) : (deliver b s).txWritten = s.txWritten := rfl
@[simp] theorem deliver_txp (b : List Byte) (s : State) : (deliver b s).txp = s.txp := rfl
@[simp] theorem deliver_rxp (b : List Byte) (s : State) : (deliver b s).rxp = s.rxp := rfl
@[simp] theorem deliver_txb (b : List Byte) (s : State) : (deliver b s).txb = s.txb := rfl
@[simp] theorem deliver_acc (b : List Byte) (s : State) : (deliver b s).acc = s.acc := rfl
@[simp] theorem deliver_curLen (b : List Byte) (s : State) : (deliver b s).curLen = s.curLen := rfl
@[simp] theorem deliver_idx (b : List Byte) (s : State) : (deliver b s).idx = s.idx := rfl
@[simp] theorem deliver_h0 (b : List Byte) (s : State) : (deliver b s).h0 = s.h0 := rfl
@[simp] theorem deliver_h1 (b : List Byte) (s : State) : (deliver b s).h1 = s.h1 := rfl
@[simp] theorem deliver_h2 (b : List Byte) (s : State) : (deliver b s).h2 = s.h2 := rfl
@[simp] theorem deliver_lenf (b : List Byte) (s : State) : (deliver b s).lenf = s.lenf := rfl
@[simp] theorem deliver_plen (b : List Byte) (s : State) : (deliver b s).plen = s.plen := rfl
@[simp] theorem deliver_avs (b : List Byte) (s : State) : (deliver b s).avs = s.avs := rfl
@[simp] theorem deliver_rxs (b : List Byte) (s : State) : (deliver b s).rxs = s.rxs := rfl
@[simp] theorem deliver_wreply (b : List Byte) (s : State) : (deliver b s).wreply = s.wreply := rfl
@[simp] theorem deliver_rxq (b : List Byte) (s : State) : (deliver b s).rxq = s.rxq := rfl
@[simp] theorem deliver_txs (b : List Byte) (s : State) : (deliver b s).txs = s.txs ++ b := rfl
@[simp] theorem deliver_pending (b : List Byte) (s : State) : (deliver b s).pending = s.pending := rfl
@[simp] theorem deliver_abandoned (b : List Byte) (s : State) : (deliver b s).abandoned = if b.isEmpty then s.abandoned else [] := rfl
@[simp] theorem deliver_faults (b : List Byte) (s : State) : (deliver b s).faults = s.faults := rfl
@[simp] theorem deliver_hostStopped (b : List Byte) (s : State) : (deliver b s).hostStopped = s.hostStopped := rfl
@[simp] theorem deliver_blockStopped (b : List Byte) (s : State) : (deliver b s).blockStopped = s.blockStopped := rfl
@[simp] theorem deliver_readData (b : List Byte) (s : State) : (deliver b s).readData = s.readData := rfl
@[simp] theorem deliver_draws (b : List Byte) (s : State) : (deliver b s).draws = s.draws := rfl
@[simp] theorem deliver_moves (b : List Byte) (s : State) : (deliver b s).moves = s.moves := rfl

end Sys2Proof.Machine
end

