-- ==== Sys2Proof/Laws/Window.lean ====
section
/-! SUPPORT. The address map: where each register and buffer byte stands. -/

namespace Sys2Proof.Machine

/-- The window is BASE to BASE + 0x3FFFF (R50). -/
theorem windowOffset_eq_some {p : Params} {addr off : Nat} :
    windowOffset p addr = some off ↔ addr = p.base + off ∧ off < 0x40000 := by
  have hsize : Config.windowSize = 0x40000 := rfl
  have hbase : p.base = p.window * 0x40000 := rfl
  rw [windowOffset, hbase]
  split
  · rename_i h
    rw [hsize] at h ⊢
    rw [Option.some.injEq]
    omega
  · rename_i h
    rw [hsize] at h
    simp only [reduceCtorEq, false_iff]
    omega

/-- An address is outside the window exactly when it is below BASE or past BASE + 0x3FFFF (R50). -/
theorem windowOffset_eq_none {p : Params} {addr : Nat} :
    windowOffset p addr = none ↔ ¬ (p.base ≤ addr ∧ addr < p.base + 0x40000) := by
  have hsize : Config.windowSize = 0x40000 := rfl
  have hbase : p.base = p.window * 0x40000 := rfl
  rw [windowOffset, hbase]
  split
  · rename_i h
    rw [hsize] at h
    simp only [reduceCtorEq, false_iff]
    omega
  · rename_i h
    rw [hsize] at h
    simp only [true_iff]
    omega

/-- The offset of an address written as BASE plus an offset of the window. -/
theorem windowOffset_base_add {p : Params} {off : Nat} (h : off < 0x40000) :
    windowOffset p (p.base + off) = some off :=
  windowOffset_eq_some.2 ⟨rfl, h⟩

@[simp] theorem windowOffset_regAddr (p : Params) (r : Reg) : windowOffset p (regAddr p r) = some (regOffset r) :=
  windowOffset_base_add (by cases r <;> decide)

@[simp] theorem placeOf_regOffset (r : Reg) : placeOf (regOffset r) = .reg r := by
  cases r <;> rfl

@[simp] theorem windowOffset_txpAddr {p : Params} {i : Nat} (h : i < 65534) :
    windowOffset p (txpAddr p i) = some (txpOffset + i) :=
  windowOffset_base_add (by simp only [txpOffset]; omega)

@[simp] theorem windowOffset_rxpAddr {p : Params} {i : Nat} (h : i < 65534) :
    windowOffset p (rxpAddr p i) = some (rxpOffset + i) :=
  windowOffset_base_add (by simp only [rxpOffset]; omega)

/-- An offset past the registers is no register. -/
theorem placeOf_of_ge {off : Nat} (h : 0x10000 ≤ off) :
    placeOf off =
      if off < 0x1FFFE then .txp (off - 0x10000)
      else if 0x20000 ≤ off ∧ off < 0x2FFFE then .rxp (off - 0x20000) else .unmapped := by
  have h0 : off ≠ 0x00000 := by omega
  have h1 : off ≠ 0x00004 := by omega
  have h2 : off ≠ 0x00008 := by omega
  have h3 : off ≠ 0x0000C := by omega
  have h4 : off ≠ 0x00010 := by omega
  have h5 : off ≠ 0x00014 := by omega
  simp only [placeOf, regOffset, txpOffset, rxpOffset, Config.maxPayload, h0, h1, h2, h3, h4, h5, h, if_false, true_and]
  rfl

@[simp] theorem placeOf_txp {i : Nat} (h : i < 65534) : placeOf (txpOffset + i) = .txp i := by
  have h2 : 0x10000 + i < 0x1FFFE := by omega
  rw [txpOffset, placeOf_of_ge (by omega), if_pos h2, Nat.add_sub_cancel_left]

@[simp] theorem placeOf_rxp {i : Nat} (h : i < 65534) : placeOf (rxpOffset + i) = .rxp i := by
  have h1 : ¬ 0x20000 + i < 0x1FFFE := by omega
  have h2 : 0x20000 ≤ 0x20000 + i ∧ 0x20000 + i < 0x2FFFE := by omega
  rw [rxpOffset, placeOf_of_ge (by omega), if_neg h1, if_pos h2, Nat.add_sub_cancel_left]

/-- The map read backwards: a register stands only at its own offset. -/
theorem placeOf_eq_reg {off : Nat} {r : Reg} (h : placeOf off = .reg r) : off = regOffset r := by
  simp only [placeOf] at h
  repeat' split at h
  all_goals first
    | (cases h; assumption)
    | cases h

/-- The map read backwards: TXP[i] stands only at its own offset, and the index is inside the buffer. -/
theorem placeOf_eq_txp {off i : Nat} (h : placeOf off = .txp i) : off = txpOffset + i ∧ i < 65534 := by
  simp only [placeOf] at h
  repeat' split at h
  all_goals simp only [Place.txp.injEq, reduceCtorEq] at h
  rename_i hb
  simp only [txpOffset, Config.maxPayload] at hb h ⊢
  omega

/-- The map read backwards: RXP[i] stands only at its own offset, and the index is inside the buffer. -/
theorem placeOf_eq_rxp {off i : Nat} (h : placeOf off = .rxp i) : off = rxpOffset + i ∧ i < 65534 := by
  simp only [placeOf] at h
  repeat' split at h
  all_goals simp only [Place.rxp.injEq, reduceCtorEq] at h
  rename_i hb
  simp only [rxpOffset, Config.maxPayload] at hb h ⊢
  omega

end Sys2Proof.Machine
end

