-- ==== Sys2Proof/Laws/Step.lean ====
section
/-! SUPPORT. What `exec` answers in each state of the sequencer, and, said once, everything a step can do. -/

namespace Sys2Proof.Machine

/-! ## exec by sequencer state -/

theorem execSend_idle {s : State} (h : s.seq = .idle) (n : Half) :
    execSend n s = .next { accept .send .txAsm s with curLen := n } := by
  simp [execSend, h]

theorem execSend_txAsm {s : State} (h : s.seq = .txAsm) : execSend s.curLen s = .next (sendAssemble s) := by
  simp [execSend, h]

theorem execSend_txWrite {s : State} (h : s.seq = .txWrite) : execSend s.curLen s = .next (sendReply s) := by
  simp [execSend, h]

theorem execCsum_idle {s : State} (h : s.seq = .idle) (n : Half) :
    execCsum n s = .next { accept .csum .csRun s with curLen := n } := by
  simp [execCsum, h]

theorem execCsum_csRun {s : State} (h : s.seq = .csRun) : execCsum s.curLen s = .next (csumRun s) := by
  simp [execCsum, h]

theorem execRecv_idle {s : State} (h : s.seq = .idle) :
    execRecv s = .next { accept .recv .rxHdr s with idx := 0#17 } := by
  simp [execRecv, h]

/-- The accept of a command in IDLE (R84). -/
def acceptOf (i : Instr) (s : State) : State :=
  match i with
  | .send n => { accept .send .txAsm s with curLen := n }
  | .recv => { accept .recv .rxHdr s with idx := 0#17 }
  | .csum n => { accept .csum .csRun s with curLen := n }

/-- The next step of the command in progress, by the state `seq` stands in. -/
def advance (s : State) : State :=
  match s.seq with
  | .idle => s
  | .txAsm => sendAssemble s
  | .txWrite => sendReply s
  | .csRun => csumRun s
  | .rxHdr => recvHeader s
  | .rxValidate => recvValidate s
  | .rxPay => recvPayload s
  | .rxSum => recvSum s
  | .rxVerify => recvVerify s
  | .rxErrf => recvErrf s

theorem exec_idle {s : State} (h : s.seq = .idle) (i : Instr) : exec i s = .next (acceptOf i s) := by
  cases i <;> simp [exec, acceptOf, execSend_idle, execRecv_idle, execCsum_idle, h]

theorem exec_inFlight {s : State} {i : Instr} (h : s.inFlight = some i) : exec i s = .next (advance s) := by
  unfold State.inFlight at h
  unfold advance
  split at h <;> cases h <;> rename_i hs <;> simp [exec, execSend, execCsum, execRecv, hs]

theorem inFlight_eq_none {s : State} : s.inFlight = none ↔ s.seq = .idle := by
  unfold State.inFlight
  split <;> simp_all

/-- Everything `exec` can answer: the accept in IDLE, the next step of the command in progress, or, while another command
is in progress, BUSY_COMMAND. -/
theorem exec_cases (i : Instr) (s : State) :
    (s.seq = .idle ∧ exec i s = .next (acceptOf i s)) ∨ (s.inFlight = some i ∧ exec i s = .next (advance s)) ∨
      (s.seq ≠ .idle ∧ s.inFlight ≠ some i ∧ exec i s = .next (hostFault .busyCommand s)) := by
  by_cases hs : s.seq = .idle
  · exact .inl ⟨hs, exec_idle hs i⟩
  by_cases hi : s.inFlight = some i
  · exact .inr (.inl ⟨hi, exec_inFlight hi⟩)
  refine .inr (.inr ⟨hs, hi, ?_⟩)
  cases i with
  | send n =>
    have h1 : ¬ (s.seq = .txAsm ∧ s.curLen = n) := fun ⟨a, b⟩ => hi (by simp [State.inFlight, a, b])
    have h2 : ¬ (s.seq = .txWrite ∧ s.curLen = n) := fun ⟨a, b⟩ => hi (by simp [State.inFlight, a, b])
    rw [exec, execSend, if_neg hs, if_neg h1, if_neg h2]
  | csum n =>
    have h1 : ¬ (s.seq = .csRun ∧ s.curLen = n) := fun ⟨a, b⟩ => hi (by simp [State.inFlight, a, b])
    rw [exec, execCsum, if_neg hs, if_neg h1]
  | recv =>
    unfold State.inFlight at hi
    unfold exec execRecv
    split at hi <;> simp_all

/-! ## The step -/

theorem busy_eq_false {s : State} : s.busy = false ↔ s.seq = .idle := by
  simp [State.busy]

theorem busy_eq_true {s : State} : s.busy = true ↔ s.seq ≠ .idle := by
  simp [State.busy]

theorem step_nil {s : State} (h : s.moves = []) : step s = blockTurn s := by
  simp [step, nextMove, h]

theorem step_cons {s : State} {m : Move} {rest : List Move} (h : s.moves = m :: rest) :
    step s = takeMove m { s with moves := rest } := by
  simp [step, nextMove, h]

/-- A host that has not been stopped makes its move. -/
theorem byHost_running {s : State} (h : s.hostStopped = false) (f : State → Result) : byHost f s = f s := by
  rw [byHost, h]
  rfl

/-- A write by a running host at an address of the window. -/
theorem step_hostWrite {s : State} {addr n off : Nat} {v : Word} {rest : List Move} (hh : s.hostStopped = false)
    (hm : s.moves = .hostWrite addr n v :: rest) (ho : windowOffset s.params addr = some off) :
    step s = writePlace (placeOf off) n v { s with moves := rest } := by
  rw [step_cons hm, takeMove, byHost_running (s := { s with moves := rest }) hh, hostWrite, ho]

/-- A read by a running host at an address of the window. -/
theorem step_hostRead {s : State} {addr n off : Nat} {rest : List Move} (hh : s.hostStopped = false)
    (hm : s.moves = .hostRead addr n :: rest) (ho : windowOffset s.params addr = some off) :
    step s = readPlace (placeOf off) n { s with moves := rest } := by
  rw [step_cons hm, takeMove, byHost_running (s := { s with moves := rest }) hh, hostRead, ho]

/-- A write of a word to CMD by a running host. -/
theorem step_writeCmd {s : State} {w : Word} {rest : List Move} (hh : s.hostStopped = false)
    (hm : s.moves = .hostWrite (regAddr s.params .cmd) 4 w :: rest) :
    step s = writeCmd w { s with moves := rest } := by
  rw [step_hostWrite hh hm (windowOffset_regAddr _ _), placeOf_regOffset, writePlace, if_pos rfl]

/-- A read of a register by a running host. -/
theorem step_readReg {s : State} {r : Reg} {n : Nat} {rest : List Move} (hh : s.hostStopped = false)
    (hm : s.moves = .hostRead (regAddr s.params r) n :: rest) :
    step s = readPlace (.reg r) n { s with moves := rest } := by
  rw [step_hostRead hh hm (windowOffset_regAddr _ _), placeOf_regOffset]

theorem writeCmd_busy {s : State} (h : s.seq ≠ .idle) (w : Word) : writeCmd w s = .next (hostFault .busyCommand s) := by
  rw [writeCmd, if_pos (busy_eq_true.2 h), faultHost]

theorem writeCmd_command {s : State} {w : Word} {i : Instr} (h : s.seq = .idle) (hb : s.blockStopped = false)
    (hd : decode w = .command i) : writeCmd w s = .next (acceptOf i s) := by
  rw [writeCmd, busy_eq_false.2 h, hb, hd]
  exact exec_idle h i

theorem writeCmd_illegal {s : State} {w : Word} {why : Illegal} (h : s.seq = .idle) (hb : s.blockStopped = false)
    (hd : decode w = .illegal why) : writeCmd w s = .next (reject s) := by
  rw [writeCmd, busy_eq_false.2 h, hb, hd]
  rfl

/-- A command word that an idle block takes: the step is the accept (R84). -/
theorem step_command {s : State} {w : Word} {i : Instr} {rest : List Move} (hs : s.seq = .idle)
    (hh : s.hostStopped = false) (hb : s.blockStopped = false)
    (hm : s.moves = .hostWrite (regAddr s.params .cmd) 4 w :: rest) (hd : decode w = .command i) :
    step s = .next (acceptOf i { s with moves := rest }) := by
  rw [step_writeCmd hh hm]
  exact writeCmd_command (s := { s with moves := rest }) hs hb hd

theorem blockTurn_inFlight {s : State} {i : Instr} (h : s.inFlight = some i) (hb : s.blockStopped = false) :
    blockTurn s = exec i s := by
  simp [blockTurn, h, hb]

/-- Everything one move can do to the state it is taken in (the move already off the list). -/
inductive Effect (s : State) : Option Move → State → Prop where
  /-- The mover has no step: it waits (R227), is stopped (R217), or the block is idle. -/
  | stay (m : Option Move) : Effect s m s
  /-- A model fault of the host, in a write. -/
  | writeFault (addr n : Nat) (v : Word) (r : ModelFault) : Effect s (some (.hostWrite addr n v)) (hostFault r s)
  /-- A model fault of the host, in a read. -/
  | readFault (addr n : Nat) (r : ModelFault) : Effect s (some (.hostRead addr n)) (hostFault r s)
  /-- An illegal command word, written to CMD. -/
  | reject (v : Word) (why : Illegal) : s.seq = .idle → decode v = .illegal why →
      Effect s (some (.hostWrite (regAddr s.params .cmd) 4 v)) (reject s)
  /-- A command word, written to CMD and accepted. -/
  | accept (v : Word) (i : Instr) : s.seq = .idle → decode v = .command i →
      Effect s (some (.hostWrite (regAddr s.params .cmd) 4 v)) (acceptOf i s)
  /-- A byte of TXP written. -/
  | txp (i : Nat) (v : Word) : s.seq = .idle → s.hostStopped = false → i < 65534 →
      Effect s (some (.hostWrite (txpAddr s.params i) 1 v)) { s with txp := Memory.write s.txp i (v.extractLsb' 0 8) }
  /-- A read answered. -/
  | read (addr n : Nat) (v : Word) (d : Nat) : Effect s (some (.hostRead addr n)) { s with readData := v, draws := d }
  /-- The host's drop. -/
  | drop (n : Nat) : s.seq = .idle → n ≤ s.rxq.length →
      Effect s (some (.hostDrop n)) { s with rxq := s.rxq.drop n }
  /-- The peer's append. -/
  | append (bs : List Byte) : Effect s (some (.peerAppend bs)) { s with rxq := s.rxq ++ bs }
  /-- The transport's reply OK(k). -/
  | ok (k : Nat) (b : List Byte) : s.pending = some b → Effect s (some (.replyOk k)) (answer (.ok k) k b s)
  /-- The transport's reply ERR. -/
  | err (p : Nat) (b : List Byte) : s.pending = some b → p ≤ b.length →
      Effect s (some (.replyErr p)) (answer .err p b s)
  /-- An abandoned request settled. -/
  | settle (p : Nat) (b : List Byte) (rest : List (List Byte)) : s.abandoned = b :: rest → p ≤ b.length →
      Effect s (some (.settleAbandoned p)) { s with txs := s.txs ++ b.take p, abandoned := rest }
  /-- The reset input. -/
  | reset : Effect s (some .reset) (resetBlock s)
  /-- The next step of the command in progress. -/
  | advance (m : Option Move) : (m = none ∨ m = some .block) → s.blockStopped = false → s.seq ≠ .idle →
      Effect s m (advance s)

theorem blockTurn_effect {s t : State} {m : Option Move} (hm : m = none ∨ m = some .block) (h : blockTurn s = .next t) :
    Effect s m t := by
  unfold blockTurn at h
  split at h
  · cases h
    exact .stay m
  · rename_i hb
    split at h
    · cases h
      exact .stay m
    · rename_i i hi
      rw [exec_inFlight hi] at h
      cases h
      refine .advance m hm (by simpa using hb) fun hs => ?_
      rw [inFlight_eq_none.2 hs] at hi
      cases hi

theorem writePlace_effect {s t : State} {addr n off : Nat} {v : Word} (hh : s.hostStopped = false)
    (ho : windowOffset s.params addr = some off) (h : writePlace (placeOf off) n v s = .next t) :
    Effect s (some (.hostWrite addr n v)) t := by
  obtain ⟨rfl, -⟩ := windowOffset_eq_some.1 ho
  unfold writePlace at h
  split at h
  · rename_i hp
    obtain rfl := placeOf_eq_reg hp
    split at h
    · subst n
      unfold writeCmd at h
      split at h
      · cases h
        exact .writeFault _ _ _ _
      · rename_i hb
        have hs : s.seq = .idle := busy_eq_false.1 (by simpa using hb)
        split at h
        · cases h
          exact .stay _
        · split at h
          · cases h
            exact .reject v _ hs ‹_›
          · rename_i i hi
            rw [exec_idle hs] at h
            cases h
            exact .accept v i hs hi
    · cases h
      exact .writeFault _ _ _ _
  · rename_i i hp
    obtain ⟨rfl, hi⟩ := placeOf_eq_txp hp
    split at h
    · subst n
      unfold writeTxp at h
      split at h
      · cases h
        exact .writeFault _ _ _ _
      · rename_i hb
        cases h
        exact .txp i v (busy_eq_false.1 (by simpa using hb)) hh hi
    · cases h
      exact .writeFault _ _ _ _
  all_goals
    cases h
    exact .writeFault _ _ _ _

theorem readPlace_effect {s t : State} {addr n : Nat} {p : Place} (h : readPlace p n s = .next t) :
    Effect s (some (.hostRead addr n)) t := by
  unfold readPlace readStatus readResult readLastSum readTxp readRxp faultHost returnData at h
  repeat' split at h
  all_goals cases h
  all_goals first
    | exact .readFault _ _ _
    | exact .read _ _ _ _

theorem takeMove_effect {s t : State} {m : Move} (h : takeMove m s = .next t) : Effect s (some m) t := by
  cases m with
  | hostWrite addr n v =>
    simp only [takeMove, byHost] at h
    split at h
    · cases h
      exact .stay _
    · rename_i hh
      unfold hostWrite at h
      split at h
      · cases h
      · exact writePlace_effect (by simpa using hh) ‹_› h
  | hostRead addr n =>
    simp only [takeMove, byHost] at h
    split at h
    · cases h
      exact .stay _
    · unfold hostRead at h
      split at h
      · cases h
      · exact readPlace_effect h
  | hostDrop n =>
    simp only [takeMove, byHost] at h
    split at h
    · cases h
      exact .stay _
    · unfold hostDrop at h
      split at h
      · cases h
      · rename_i hn
        cases h
        obtain ⟨hb, hl⟩ := not_or.1 hn
        exact .drop n (busy_eq_false.1 (by simpa using hb)) (Nat.le_of_not_lt hl)
  | peerAppend bs =>
    cases h
    exact .append bs
  | replyOk k =>
    simp only [takeMove, replyOk] at h
    split at h
    · cases h
    · cases h
      exact .ok k _ ‹_›
  | replyErr p =>
    simp only [takeMove, replyErr] at h
    split at h
    · cases h
    · split at h <;> cases h
      exact .err p _ ‹_› (Nat.le_of_not_lt ‹_›)
  | settleAbandoned p =>
    simp only [takeMove, settleAbandoned] at h
    split at h
    · cases h
    · split at h <;> cases h
      exact .settle p _ _ ‹_› (Nat.le_of_not_lt ‹_›)
  | reset =>
    cases h
    exact .reset
  | block => exact blockTurn_effect (.inr rfl) h

/-- The state a move is taken in: the step's own, with the move off the list. -/
def popped (s : State) : State := { s with moves := s.moves.tail }

/-- Everything a step can do. -/
theorem step_effect {s t : State} (h : step s = .next t) : Effect (popped s) s.moves.head? t := by
  cases hm : s.moves with
  | nil =>
    have hp : popped s = s := by
      cases s
      simp_all [popped]
    rw [step_nil hm] at h
    rw [hp]
    exact blockTurn_effect (.inl rfl) h
  | cons m rest =>
    rw [step_cons hm] at h
    have := takeMove_effect h
    simpa [popped, hm] using this

end Sys2Proof.Machine
end

