-- ==== Sys2Proof/Laws/Run.lean ====
section
/-! SUPPORT. Runs of several steps, taken apart: one step, and two runs in a row. -/

namespace Sys2Proof.Machine

@[simp] theorem run_zero (s : State) : core.run 0 s = .next s := rfl

/-- A run whose first step answers t goes on from t, in any machine. -/
theorem coreRun_next (M : Host.Core) {s t : M.State} (h : M.step s = .next t) (k : Nat) :
    M.run (k + 1) s = M.run k t := by
  rw [Host.Core.run, h]

/-- A run that answers has a first step that answers, and goes on from there, in any machine. -/
theorem coreRun_succ (M : Host.Core) {s t : M.State} {k : Nat} (h : M.run (k + 1) s = .next t) :
    ∃ u, M.step s = .next u ∧ M.run k u = .next t := by
  rw [Host.Core.run] at h
  split at h
  · exact ⟨_, ‹_›, h⟩
  · cases h
  · cases h

/-- A run of a steps that answers t, then b more, in any machine. -/
theorem coreRun_append (M : Host.Core) {s t : M.State} {a : Nat} (h : M.run a s = .next t) (b : Nat) :
    M.run (a + b) s = M.run b t := by
  induction a generalizing s with
  | zero =>
    cases h
    rw [Nat.zero_add]
  | succ a ih =>
    obtain ⟨u, hu, hr⟩ := coreRun_succ M h
    rw [show a + 1 + b = a + b + 1 by omega, coreRun_next M hu, ih hr]

/-- A run whose first step answers t goes on from t. -/
theorem run_next {s t : State} (h : step s = .next t) (k : Nat) : core.run (k + 1) s = core.run k t :=
  coreRun_next core h k

/-- A run of a steps that answers t, then b more. -/
theorem run_append {s t : State} {a : Nat} (h : core.run a s = .next t) (b : Nat) :
    core.run (a + b) s = core.run b t :=
  coreRun_append core h b

/-- The turn of a block that has not faulted is its next step. -/
theorem blockTurn_advance {s : State} (hb : s.blockStopped = false) : blockTurn s = .next (advance s) := by
  cases hi : s.inFlight with
  | none =>
    have hs : s.seq = .idle := inFlight_eq_none.1 hi
    rw [blockTurn, hb, hi, advance, hs]
    rfl
  | some i => rw [blockTurn_inFlight hi hb, exec_inFlight hi]

/-- One step of a block that has not faulted, on its listed turn. -/
theorem step_block {s : State} {rest : List Move} (hb : s.blockStopped = false) (hm : s.moves = .block :: rest) :
    step s = .next (advance { s with moves := rest }) := by
  rw [step_cons hm]
  exact blockTurn_advance (s := { s with moves := rest }) hb

/-- One step of a block that has not faulted, with no move listed. -/
theorem step_alone {s : State} (hb : s.blockStopped = false) (hm : s.moves = []) : step s = .next (advance s) := by
  rw [step_nil hm]
  exact blockTurn_advance hb

end Sys2Proof.Machine
end

