-- ==== Sys2Proof/Tests/Slice0.lean ====
section
/-! SUPPORT. The model's own tests: ill-formed words refused, words written out from the spec's encoding, single steps with
expected values from the vectors of 95_test_vectors.md, and, for every statement with hypotheses, a named witness that meets
them. -/

namespace Sys2Proof.Tests

open Sys2Proof.Machine

/-! ## Words -/

/-- R83, one ill-formed word per check: OP 0 (V-CMD-0), RSV bit 4 (V-CMD-RSV), RECV with LENGTH 1 (V-CMD-RXLEN). -/
theorem test_illegal_words_refused :
    opKnown 0x00000000#32 = false ∧ rsvClear 0x00000011#32 = false ∧ recvLengthClear 0x00010002#32 = false ∧
      decode 0x00000000#32 = .illegal .unknownOp ∧ decode 0x00000011#32 = .illegal .reservedBits ∧
      decode 0x00010002#32 = .illegal .recvWithLength ∧ wordLegal 0x00010001#32 = true := by decide

/-- SEND: LENGTH in [31:16], RSV 0, OP 0001 (R80, R85), with a LENGTH whose two bytes differ. -/
theorem test_decode_send :
    decode 0b10000000000000110000000000000001#32 = .command (.send 0x8003#16) := by decide

/-- RECV: all bits 0 but OP 0010 (R85). -/
theorem test_decode_recv : decode 0b00000000000000000000000000000010#32 = .command .recv := by decide

/-- CSUM: LENGTH in [31:16], RSV 0, OP 0011 (R80, R85). -/
theorem test_decode_csum :
    decode 0b01000000000000010000000000000011#32 = .command (.csum 0x4001#16) := by decide

/-- The encoder writes the words R97 gives: (L << 16) | OP. -/
theorem test_encode :
    encode (.send 0x8003#16) = 0x80030001#32 ∧ encode .recv = 0x00000002#32 ∧
      encode (.csum 0x4001#16) = 0x40010003#32 := by decide

/-- The words of spec/opcode_table.json with every operand bit 0. -/
theorem test_decodeTableWord :
    decodeTableWord 32 1 = some (.send 0#16) ∧ decodeTableWord 32 2 = some .recv ∧
      decodeTableWord 32 3 = some (.csum 0#16) ∧ decodeTableWord 32 0 = none := by decide

/-! ## Single steps -/

/-- The state an outcome carries; the reset state where it carries none. -/
def stateOf (r : Result) : State :=
  match r with
  | .next s => s
  | .fault _ | .refused _ => State.reset

/-- Right after reset, the host's first write of each command word is one step, which accepts it (R84). -/
theorem test_first_command :
    (stateOf (step (State.reset.withFetchWord 32 1))).seq = .txAsm ∧
      (stateOf (step (State.reset.withFetchWord 32 2))).seq = .rxHdr ∧
      (stateOf (step (State.reset.withFetchWord 32 3))).seq = .csRun := by decide

/-- A state in which `op` is in progress, in the sequencer state q. -/
def during (op : LastOp) (q : Machine.Seq) : State := { State.reset with lastOp := op, seq := q }

/-- V-EX1: the request of `send 1` with TXP[0] = 01, and LAST_SUM 03. -/
theorem test_send_assembles :
    (stateOf (exec (.send 1#16) { during .send .txAsm with curLen := 1#16, txp := [(0, 0x01#8)] })).pending =
        some [0xE0#8, 0x00#8, 0x02#8, 0x01#8, 0x03#8] ∧
      (stateOf (exec (.send 1#16) { during .send .txAsm with curLen := 1#16, txp := [(0, 0x01#8)] })).lastSum =
        0x03#32 := by decide

/-- V-TX-BIGK: OK(131077) wraps COUNT to 5 and is no success (STATUS 0x00001082). -/
theorem test_send_count_wraps :
    let t := stateOf (exec (.send 1#16)
      { during .send .txWrite with curLen := 1#16, sumValid := true, wreply := .ok 131077 })
    t.txWritten = 0x00000005#32 ∧ statusWord t = 0x00001082#32 := by decide

/-- V-RX-EARLY: LEN 2 with one byte queued (STATUS 0x00003004, RX_INFO 0x000200E0). -/
theorem test_recv_length_mismatch :
    let t := stateOf (exec .recv { during .recv .rxValidate with h0 := 0xE0#8, h2 := 0x02#8, rxq := [0x01#8] })
    statusWord t = 0x00003004#32 ∧ t.rxInfo = 0x000200E0#32 ∧ t.rxLen = 0x00000001#32 ∧ t.rxq = [0x01#8] := by decide

/-- V-EX4: payload 01 with SUM 04: LAST_SUM is the computed 03, and the error frame goes out. -/
theorem test_recv_checksum_mismatch :
    let t := stateOf (exec .recv
      { during .recv .rxVerify with lenf := 2#16, plen := 1#17, rxp := [(0, 0x01#8)], rxs := 0x04#8 })
    t.lastSum = 0x03#32 ∧ t.pending = some [0xE0#8, 0x00#8, 0x02#8, 0x03#8, 0x05#8] := by decide

/-- V-CS-3: payload 80 80 wraps (LAST_SUM 03, STATUS 0x00000096). -/
theorem test_csum_wraps :
    let t := stateOf (exec (.csum 2#16)
      { during .csum .csRun with curLen := 2#16, txp := [(0, 0x80#8), (1, 0x80#8)] })
    t.lastSum = 0x03#32 ∧ statusWord t = 0x00000096#32 := by decide

/-- V-CS-LEN: `csum 65535` (STATUS 0x00004006). -/
theorem test_csum_too_long :
    statusWord (stateOf (exec (.csum 0xFFFF#16) { during .csum .csRun with curLen := 0xFFFF#16 })) = 0x00004006#32 := by
  decide

/-! ## Witnesses

Each theorem below is named after the statement whose hypotheses it shows to be satisfiable together. -/

/-- A move of the host: the command word w to CMD, at the default BASE. -/
def cmd (w : Word) : Move := .hostWrite (regAddr State.reset.params .cmd) 4 w

/-- n zero bytes. -/
def zeros (n : Nat) : List Byte := List.replicate n 0x00#8

@[simp] theorem zeros_length (n : Nat) : (zeros n).length = n := by simp [zeros]

/-- A buffer that holds p and nothing else. -/
def holding (p : List Byte) : Memory := Memory.writeBytes [] 0 p

theorem holding_holds (p : List Byte) : (holding p).holds p := fun i hi => by
  have := Memory.read_writeBytes [] (a := 0) hi
  rwa [Nat.zero_add] at this

theorem witness_DecodeFollowsMaskAndMatch :
    (0xFFFF0001#32 &&& 0x0000FFFF#32 = 0x00000001#32) ∧ (0x00000002#32 &&& 0xFFFFFFFF#32 = 0x00000002#32) ∧
      (0xFFFF0003#32 &&& 0x0000FFFF#32 = 0x00000003#32) ∧
      (0x00010002#32 &&& 0x0000FFFF#32 ≠ 0x00000001#32 ∧ 0x00010002#32 &&& 0xFFFFFFFF#32 ≠ 0x00000002#32 ∧
        0x00010002#32 &&& 0x0000FFFF#32 ≠ 0x00000003#32) := by decide

theorem witness_DecodeAndEncodeAgree :
    decode 0xFFFF0001#32 = .command (.send 65535#16) ∧ decode 0x00000003#32 = .command (.csum 0#16) := by decide

theorem witness_StepRunsTheDecodedCommand_write :
    let s : State := { State.reset with moves := [cmd 0xFFFF0003#32] }
    s.seq = .idle ∧ s.hostStopped = false ∧ s.blockStopped = false ∧
      s.moves = .hostWrite (regAddr s.params .cmd) 4 0xFFFF0003#32 :: [] ∧
      decode 0xFFFF0003#32 = .command (.csum 65535#16) := by decide

theorem witness_StepRunsTheDecodedCommand_turn :
    let s : State := { during .recv .rxHdr with moves := [.block] }
    s.inFlight = some .recv ∧ s.blockStopped = false ∧ s.moves = .block :: [] := by decide

theorem witness_StepRunsTheDecodedCommand_alone :
    (during .send .txWrite).inFlight = some (.send 0#16) ∧ (during .send .txWrite).blockStopped = false ∧
      (during .send .txWrite).moves = [] := by decide

theorem witness_StepRunsTheDecodedCommand_fetch : decodeTableWord 32 0xFFFF0001 = some (.send 65535#16) := by decide

/-- The hypotheses of CommandDecode, with the word w and the sequencer in q. -/
theorem commandDecode_hypotheses (q : Machine.Seq) (w : Word) :
    let s : State := { during .none q with moves := [cmd w] }
    s.seq = q ∧ s.hostStopped = false ∧ s.blockStopped = false ∧
      s.moves = .hostWrite (regAddr s.params .cmd) 4 w :: [] := ⟨rfl, rfl, rfl, rfl⟩

/-- A busy block, and one that has met UNWRITTEN_TXP and is still busy. -/
theorem witness_CommandDecode_busy : ∀ b ∈ [true, false], ∃ s : State, s.seq ≠ .idle ∧ s.hostStopped = false ∧
    s.blockStopped = b ∧ s.moves = .hostWrite (regAddr s.params .cmd) 4 0x00000002#32 :: [] := fun b _ =>
  ⟨{ during .csum .csRun with blockStopped := b, moves := [cmd 0x00000002#32] }, nofun, rfl, rfl, rfl⟩

theorem witness_CommandDecode_words : ∀ w ∈ [0x00008001#32, 0x00000000#32, 0x00000004#32, 0x00010002#32, 0xFFFF0001#32,
    0x00000002#32, 0x00000003#32], ∃ s : State, s.seq = .idle ∧ s.hostStopped = false ∧ s.blockStopped = false ∧
      s.moves = .hostWrite (regAddr s.params .cmd) 4 w :: [] := fun w _ =>
  ⟨_, commandDecode_hypotheses .idle w⟩

theorem witness_IllegalWordsAreRejected :
    ∀ w ∈ [0x00008001#32, 0x00000000#32, 0x0000000F#32, 0x00010002#32, 0xFFFF0002#32],
      (∃ s : State, s.seq = .idle ∧ s.hostStopped = false ∧ s.blockStopped = false ∧
        s.moves = .hostWrite (regAddr s.params .cmd) 4 w :: []) ∧
      ((w.toNat % 16 ≠ 1 ∧ w.toNat % 16 ≠ 2 ∧ w.toNat % 16 ≠ 3) ∨ w.toNat / 16 % 4096 ≠ 0 ∨
        (w.toNat % 16 = 2 ∧ w.toNat / 65536 ≠ 0)) := by
  intro w hw
  refine ⟨⟨_, commandDecode_hypotheses .idle w⟩, ?_⟩
  simp only [List.mem_cons, List.not_mem_nil, or_false] at hw
  rcases hw with rfl | rfl | rfl | rfl | rfl <;> simp

theorem witness_IdleBlockAcceptsEveryCommand : (during .send .idle).seq = .idle := rfl

theorem witness_AccumulatorComputesTheChecksum :
    (1#16 : Half).toNat = (zeros 0).length + 1 ∧ (65535#16 : Half).toNat = (zeros 65534).length + 1 := by
  simp

theorem witness_ChecksumSeesEverySingleByteChange :
    (0x0102#16 : Half).toNat % 256 = (0xFF02#16 : Half).toNat % 256 ∧ (0x00#8 : Byte) ≠ 0xFF#8 := by decide

/-! ### SEND and CSUM -/

/-- SEND or CSUM in progress in q, its LENGTH n and its n bytes of TXP written. -/
def withPayload (op : LastOp) (q : Machine.Seq) (n : Nat) : State :=
  { during op q with curLen := BitVec.ofNat 16 n, txp := holding (zeros n) }

theorem withPayload_hypotheses (op : LastOp) (q : Machine.Seq) {n : Nat} (h : n ≤ 65534) :
    (withPayload op q n).seq = q ∧ (zeros n).length = (withPayload op q n).curLen.toNat ∧
      (withPayload op q n).curLen.toNat ≤ 65534 ∧ (withPayload op q n).txp.holds (zeros n) := by
  have hn : (withPayload op q n).curLen.toNat = n := by
    rw [withPayload, BitVec.toNat_ofNat]
    omega
  exact ⟨rfl, by rw [hn, zeros_length], by rw [hn]; exact h, holding_holds (zeros n)⟩

theorem witness_CsumComputesOrReports_accept :
    0xFFFF0003#32 &&& 0x0000FFFF#32 = 0x00000003#32 ∧ (during .send .idle).seq = .idle := by decide

theorem witness_CsumComputesOrReports_long :
    let s : State := { during .csum .csRun with curLen := 65535#16 }
    s.seq = .csRun ∧ s.curLen.toNat = 65535 := by decide

theorem witness_CsumComputesOrReports_unwritten :
    let s : State := { during .csum .csRun with curLen := 1#16 }
    s.seq = .csRun ∧ s.curLen.toNat ≤ 65534 ∧ ∃ i < s.curLen.toNat, Memory.read s.txp i = none := by decide

theorem witness_CsumComputesOrReports_sum : ∃ (s : State) (p : List Byte), s.seq = .csRun ∧ p.length = s.curLen.toNat ∧
    s.curLen.toNat ≤ 65534 ∧ s.txp.holds p ∧ p.length = 65534 :=
  ⟨withPayload .csum .csRun 65534, zeros 65534, by
    obtain ⟨h1, h2, h3, h4⟩ := withPayload_hypotheses .csum .csRun (n := 65534) (by omega)
    exact ⟨h1, h2, h3, h4, zeros_length 65534⟩⟩

theorem witness_CsumFrame :
    ∃ t u : State, exec (.csum 7#16) (during .none .idle) = .next t ∧ (during .none .idle).seq = .idle ∧
      exec (.csum 0#16) (during .csum .csRun) = .next u ∧ (during .csum .csRun).seq ≠ .idle :=
  ⟨_, _, rfl, rfl, rfl, by decide⟩

theorem witness_SendAssemblesTheFrame_long :
    let s : State := { during .send .txAsm with curLen := 65535#16 }
    s.seq = .txAsm ∧ s.curLen.toNat = 65535 := by decide

theorem witness_SendAssemblesTheFrame : ∃ (s : State) (p : List Byte), s.seq = .txAsm ∧ p.length = s.curLen.toNat ∧
    s.curLen.toNat ≤ 65534 ∧ s.txp.holds p ∧ p.length = 65534 :=
  ⟨withPayload .send .txAsm 65534, zeros 65534, by
    obtain ⟨h1, h2, h3, h4⟩ := withPayload_hypotheses .send .txAsm (n := 65534) (by omega)
    exact ⟨h1, h2, h3, h4, zeros_length 65534⟩⟩

theorem witness_SendOfUnwrittenBytesFaults :
    let s : State := { during .send .txAsm with curLen := 2#16, txp := [(0, 0x01#8)] }
    s.seq = .txAsm ∧ s.curLen.toNat ≤ 65534 ∧ ∃ i < s.curLen.toNat, Memory.read s.txp i = none := by decide

theorem witness_SendReportsTheReply_ok :
    let s : State := { during .send .txWrite with curLen := 65534#16, wreply := .ok 65538 }
    s.seq = .txWrite ∧ s.pending = none ∧ s.wreply = .ok 65538 ∧ 65538 = s.curLen.toNat + 4 ∧
      (stateOf (exec (.send s.curLen) s)).result = true := by decide

theorem witness_SendReportsTheReply_other :
    let s : State := { during .send .txWrite with wreply := .ok 0 }
    let u : State := { during .send .txWrite with wreply := .err }
    (s.seq = .txWrite ∧ s.pending = none ∧ s.wreply = .ok 0) ∧
      (u.seq = .txWrite ∧ u.pending = none ∧ u.wreply = .err) := by decide

theorem witness_SendWaitsAndNeverRetries :
    let s : State := { during .send .txWrite with pending := some (frameOf []) }
    (s.seq = .txWrite ∧ s.pending = some (frameOf [])) ∧
      ((during .send .txWrite).seq = .txWrite ∧ (during .send .txWrite).pending = none) := by decide

theorem witness_SendFrame :
    ∃ t u v : State, (exec (.send 7#16) (during .none .idle) = .next t ∧ (during .none .idle).seq ≠ .txAsm) ∧
      (exec (.send 0#16) (during .send .txAsm) = .next u ∧ (during .send .txAsm).seq ≠ .idle) ∧
      exec (.send 0#16) (during .send .txWrite) = .next v :=
  ⟨_, _, _, ⟨rfl, by decide⟩, ⟨rfl, by decide⟩, rfl⟩

/-- The hypotheses of SendPutsTheFrameOnTheWire, for a payload of n bytes and the reply OK(k). -/
theorem sendPuts_hypotheses {n : Nat} (h : n ≤ 65534) (m : Move) : ∃ s : State,
    s.seq = .idle ∧ s.hostStopped = false ∧ s.blockStopped = false ∧ (zeros n).length ≤ 65534 ∧ s.txp.holds (zeros n) ∧
      s.moves = .hostWrite (regAddr s.params .cmd) 4 (BitVec.ofNat 32 ((zeros n).length * 65536 + 1)) :: .block ::
        m :: .block :: [] :=
  ⟨{ State.reset with
      txp := holding (zeros n)
      moves := [cmd (BitVec.ofNat 32 ((zeros n).length * 65536 + 1)), .block, m, .block] },
    rfl, rfl, rfl, by rw [zeros_length]; exact h, holding_holds _, rfl⟩

/-- The longest frame, with the reply that wrote all of it and with ERR after all of it. -/
theorem witness_SendPutsTheFrameOnTheWire : ∀ m ∈ [Move.replyOk 65538, .replyErr 65538],
    (m = .replyOk 65538 ∨ (m = .replyErr 65538 ∧ 65538 ≤ (zeros 65534).length + 4)) ∧ ∃ s : State,
    s.seq = .idle ∧ s.hostStopped = false ∧ s.blockStopped = false ∧ (zeros 65534).length ≤ 65534 ∧
      s.txp.holds (zeros 65534) ∧
      s.moves = .hostWrite (regAddr s.params .cmd) 4 (BitVec.ofNat 32 ((zeros 65534).length * 65536 + 1)) :: .block ::
        m :: .block :: [] := by
  intro m hm
  refine ⟨?_, sendPuts_hypotheses (n := 65534) (by omega) m⟩
  rw [zeros_length]
  simpa using hm

/-! ### RECV -/

theorem witness_RecvReadsTheHeader_waits : (during .recv .rxHdr).seq = .rxHdr ∧ (during .recv .rxHdr).rxq = [] :=
  ⟨rfl, rfl⟩

theorem witness_RecvReadsTheHeader : ∀ i ∈ [0#17, 1#17, 2#17],
    let s : State := { during .recv .rxHdr with idx := i, rxq := [0x55#8] }
    s.seq = .rxHdr ∧ s.rxq = 0x55#8 :: [] ∧ s.idx = i := fun _ _ => ⟨rfl, rfl, rfl⟩

theorem witness_BlockWaitsExactlyWhereTheRuleSays : ∀ q ∈ [Machine.Seq.idle, .rxHdr, .rxPay, .rxSum, .csRun, .rxErrf],
    (during .recv q).blockStopped = false ∧ (during .recv q).moves = [] ∧ (during .recv q).seq = q ∧
      (during .recv q).rxq = [] ∧ (during .recv q).pending = none := fun _ _ => ⟨rfl, rfl, rfl, rfl, rfl⟩

/-- The check passes under FULL at the largest LEN, under LOW_BYTE at the largest that it can match whole, and under
LOW_BYTE_MOD past it; it fails at LEN = 0 under each. -/
theorem witness_RecvValidatesTheLength :
    (∃ s : State, s.seq = .rxValidate ∧ s.params.availCheck = .full ∧ s.h1.toNat * 256 + s.h2.toNat = 65535 ∧
      s.rxq.length = 65535) ∧
    (∃ s : State, s.seq = .rxValidate ∧ s.params.availCheck = .lowByte ∧ s.h1.toNat * 256 + s.h2.toNat = 255 ∧
      s.rxq.length = 255) ∧
    (∃ s : State, s.seq = .rxValidate ∧ s.params.availCheck = .lowByteMod ∧ s.h1.toNat * 256 + s.h2.toNat = 256 ∧
      s.rxq.length = 256) ∧
    (∃ s : State, s.seq = .rxValidate ∧ s.h1.toNat * 256 + s.h2.toNat = 0 ∧ s.rxq.length = 0) :=
  ⟨⟨{ during .recv .rxValidate with
        params := { availCheck := .full, window := 0, logEnable := false }
        h1 := 0xFF#8
        h2 := 0xFF#8
        rxq := zeros 65535 }, rfl, rfl, rfl, zeros_length _⟩,
    ⟨{ during .recv .rxValidate with h2 := 0xFF#8, rxq := zeros 255 }, rfl, rfl, rfl, zeros_length _⟩,
    ⟨{ during .recv .rxValidate with
        params := { availCheck := .lowByteMod, window := 0, logEnable := false }
        h1 := 0x01#8
        rxq := zeros 256 }, rfl, rfl, rfl, zeros_length _⟩,
    ⟨during .recv .rxValidate, rfl, rfl, rfl⟩⟩

theorem witness_RecvAllocatesAndStoresThePayload_check :
    let s : State := { during .recv .rxValidate with h2 := 0x01#8, rxq := [0x01#8] }
    s.seq = .rxValidate ∧ lengthOk s.params.availCheck s.rxq.length (s.h1 ++ s.h2) = true := by decide

theorem witness_RecvAllocatesAndStoresThePayload :
    let s : State := { during .recv .rxPay with idx := 65533#17, plen := 65534#17, rxq := [0xE0#8] }
    (s.seq = .rxPay ∧ s.rxq = 0xE0#8 :: [] ∧ s.idx + 1#17 = s.plen) ∧
      ((during .recv .rxPay).seq = .rxPay ∧ (during .recv .rxPay).rxq = []) := by decide

theorem witness_RecvReadsTheChecksumByte :
    let s : State := { during .recv .rxSum with rxInfo := 0xFFFF00E0#32, rxq := [0xFF#8, 0x01#8] }
    (s.seq = .rxSum ∧ s.rxq = 0xFF#8 :: [0x01#8]) ∧
      ((during .recv .rxSum).seq = .rxSum ∧ (during .recv .rxSum).rxq = []) := by decide

/-- A RECV in RX_VERIFY with n payload bytes received. -/
def verifying (n : Nat) (sum : Byte) : State :=
  { during .recv .rxVerify with
    plen := BitVec.ofNat 17 n
    lenf := BitVec.ofNat 16 (n + 1)
    rxp := holding (zeros n)
    rxs := sum }

theorem verifying_hypotheses {n : Nat} (h : n ≤ 65534) (sum : Byte) :
    (verifying n sum).seq = .rxVerify ∧ (verifying n sum).plen.toNat = (zeros n).length ∧
      (verifying n sum).lenf.toNat = (zeros n).length + 1 ∧ (verifying n sum).rxp.holds (zeros n) := by
  refine ⟨rfl, ?_, ?_, holding_holds _⟩
  · rw [verifying, BitVec.toNat_ofNat, zeros_length]
    omega
  · rw [verifying, BitVec.toNat_ofNat, zeros_length]
    omega

theorem witness_RecvVerifiesTheChecksum_match : ∃ (s : State) (p : List Byte), s.seq = .rxVerify ∧
    s.plen.toNat = p.length ∧ s.lenf.toNat = p.length + 1 ∧ s.rxp.holds p ∧ checksum p = s.rxs ∧ p.length = 65534 :=
  ⟨verifying 65534 (checksum (zeros 65534)), zeros 65534, by
    obtain ⟨h1, h2, h3, h4⟩ := verifying_hypotheses (n := 65534) (by omega) (checksum (zeros 65534))
    exact ⟨h1, h2, h3, h4, rfl, zeros_length 65534⟩⟩

theorem witness_RecvVerifiesTheChecksum_mismatch : ∃ (s : State) (p : List Byte), s.seq = .rxVerify ∧
    s.plen.toNat = p.length ∧ s.lenf.toNat = p.length + 1 ∧ s.rxp.holds p ∧ checksum p ≠ s.rxs :=
  ⟨verifying 0 0x00#8, zeros 0, by
    obtain ⟨h1, h2, h3, h4⟩ := verifying_hypotheses (n := 0) (by omega) 0x00#8
    exact ⟨h1, h2, h3, h4, by decide⟩⟩

theorem witness_RecvEndsOnAnyReply :
    let s (m : Move) : State := { during .recv .rxErrf with pending := some Config.errorFrame, moves := [m] }
    ((during .recv .rxErrf).seq = .rxErrf ∧ (during .recv .rxErrf).pending = none) ∧
      ((s .block).seq = .rxErrf ∧ (s .block).pending = some Config.errorFrame) ∧
      ((s (.replyOk 9)).seq = .rxErrf ∧ (s (.replyOk 9)).pending = some Config.errorFrame ∧
        (s (.replyOk 9)).moves = .replyOk 9 :: []) ∧
      ((s (.replyErr 5)).seq = .rxErrf ∧ (s (.replyErr 5)).pending = some Config.errorFrame ∧
        (s (.replyErr 5)).moves = .replyErr 5 :: [] ∧ 5 ≤ 5) := by decide

theorem witness_RecvFrame :
    ∀ q ∈ [Machine.Seq.idle, .rxHdr, .rxValidate, .rxPay, .rxSum, .rxVerify, .rxErrf],
      ∃ t, exec .recv (during .recv q) = .next t ∧ (during .recv q).seq = q := by
  intro q _
  cases q <;> exact ⟨_, rfl, rfl⟩

theorem witness_RecvTakesOneFrame_full : ∃ s : State, s.seq = .idle ∧ s.hostStopped = false ∧ s.blockStopped = false ∧
    s.pending = none ∧ (zeros 65534).length ≤ 65534 ∧
    s.rxq = 0xE0#8 :: BitVec.ofNat 8 (((zeros 65534).length + 1) / 256) ::
      BitVec.ofNat 8 (((zeros 65534).length + 1) % 256) :: (zeros 65534 ++ 0xFF#8 :: []) ∧
    s.moves = [.hostWrite (regAddr s.params .cmd) 4 0x00000002#32] ∧ s.params.availCheck = .full :=
  ⟨{ State.reset with
      params := { availCheck := .full, window := 0, logEnable := false }
      rxq := 0xE0#8 :: BitVec.ofNat 8 (((zeros 65534).length + 1) / 256) ::
        BitVec.ofNat 8 (((zeros 65534).length + 1) % 256) :: (zeros 65534 ++ 0xFF#8 :: [])
      moves := [cmd 0x00000002#32] }, rfl, rfl, rfl, rfl, by rw [zeros_length], rfl, rfl, rfl⟩

/-- LOW_BYTE with nothing behind the frame, at the largest LEN it can match whole; and LOW_BYTE_MOD with 256 bytes behind
an empty payload, the frame's SUM wrong. -/
theorem witness_RecvTakesOneFrame_low :
    (∃ s : State, s.seq = .idle ∧ s.hostStopped = false ∧ s.blockStopped = false ∧ s.pending = none ∧
      s.rxq = 0x55#8 :: 0x00#8 :: 0xFF#8 :: (zeros 254 ++ 0xFF#8 :: []) ∧
      s.moves = [.hostWrite (regAddr s.params .cmd) 4 0x00000002#32] ∧ s.params.availCheck = .lowByte ∧
      254 + 1 + ([] : List Byte).length = (254 + 1) % 256) ∧
    (∃ s : State, s.seq = .idle ∧ s.hostStopped = false ∧ s.blockStopped = false ∧ s.pending = none ∧
      s.rxq = 0xE0#8 :: 0x00#8 :: 0x01#8 :: ([] ++ 0x00#8 :: zeros 256) ∧
      s.moves = [.hostWrite (regAddr s.params .cmd) 4 0x00000002#32] ∧ s.params.availCheck = .lowByteMod ∧
      (0 + 1 + (zeros 256).length) % 256 = (0 + 1) % 256) :=
  ⟨⟨{ State.reset with
        rxq := 0x55#8 :: 0x00#8 :: 0xFF#8 :: (zeros 254 ++ 0xFF#8 :: [])
        moves := [cmd 0x00000002#32] }, rfl, rfl, rfl, rfl, rfl, rfl, rfl, rfl⟩,
    ⟨{ State.reset with
        params := { availCheck := .lowByteMod, window := 0, logEnable := false }
        rxq := 0xE0#8 :: 0x00#8 :: 0x01#8 :: ([] ++ 0x00#8 :: zeros 256)
        moves := [cmd 0x00000002#32] }, rfl, rfl, rfl, rfl, rfl, rfl, rfl, by rw [zeros_length]⟩⟩

theorem witness_RecvRejectsALengthMismatch :
    let s : State := { State.reset with rxq := [0xE0#8, 0x00#8, 0x00#8], moves := [cmd 0x00000002#32] }
    s.seq = .idle ∧ s.hostStopped = false ∧ s.blockStopped = false ∧ s.rxq = 0xE0#8 :: 0x00#8 :: 0x00#8 :: [] ∧
      s.moves = [.hostWrite (regAddr s.params .cmd) 4 0x00000002#32] ∧
      lengthOk s.params.availCheck ([] : List Byte).length (0x00#8 ++ 0x00#8) = false := by decide

/-- LEN 255 with its bytes queued and LEN 256 with its bytes queued, both under LOW_BYTE; LEN 256 with none queued, whose low
byte is 0; and LEN 65535 under FULL. -/
theorem witness_AvailabilityWindow :
    (∃ s : State, s.seq = .rxValidate ∧ s.params.availCheck = .lowByte ∧ s.h1.toNat * 256 + s.h2.toNat = 255 ∧
      s.rxq.length = 255) ∧
    (∃ s : State, s.seq = .rxValidate ∧ s.params.availCheck = .lowByte ∧ s.h1.toNat * 256 + s.h2.toNat = 256 ∧
      s.rxq.length = 256) ∧
    (∃ s : State, s.seq = .rxValidate ∧ s.params.availCheck = .lowByte ∧ 1 ≤ s.h1.toNat * 256 + s.h2.toNat ∧
      s.rxq.length = s.h2.toNat ∧ s.h2.toNat = 0) ∧
    (∃ s : State, s.seq = .rxValidate ∧ s.params.availCheck = .full ∧ s.h1.toNat * 256 + s.h2.toNat = 65535 ∧
      s.rxq.length = 65535) ∧
    ((during .recv .rxValidate).seq = .rxValidate ∧
      (during .recv .rxValidate).h1.toNat * 256 + (during .recv .rxValidate).h2.toNat = 0) :=
  ⟨⟨{ during .recv .rxValidate with h2 := 0xFF#8, rxq := zeros 255 }, rfl, rfl, rfl, zeros_length _⟩,
    ⟨{ during .recv .rxValidate with h1 := 0x01#8, rxq := zeros 256 }, rfl, rfl, rfl, zeros_length _⟩,
    ⟨{ during .recv .rxValidate with h1 := 0x01#8 }, rfl, rfl, by decide, rfl, rfl⟩,
    ⟨{ during .recv .rxValidate with
        params := { availCheck := .full, window := 0, logEnable := false }
        h1 := 0xFF#8
        h2 := 0xFF#8
        rxq := zeros 65535 }, rfl, rfl, rfl, zeros_length _⟩,
    rfl, rfl⟩

/-- The state of RoundTrip for TXP = FF FF 10 (program P4). -/
def roundTripState : State :=
  { State.reset with
    txp := [(0, 0xFF#8), (1, 0xFF#8), (2, 0x10#8)]
    moves := [cmd (encode (.send 3#16)), .block, .replyOk 7, .block,
      .peerAppend [0xE0#8, 0x00#8, 0x04#8, 0xFF#8, 0xFF#8, 0x10#8, 0x12#8], cmd (encode .recv)] }

theorem witness_RoundTrip : ∃ (s : State) (p wire : List Byte),
    s.seq = .idle ∧ s.hostStopped = false ∧ s.blockStopped = false ∧ s.rxq = [] ∧ p.length ≤ 65534 ∧ s.txp.holds p ∧
      (s.params.availCheck = .lowByte → p.length + 1 ≤ 255) ∧
      s.moves = [.hostWrite (regAddr s.params .cmd) 4 (encode (.send (BitVec.ofNat 16 p.length))), .block,
        .replyOk (p.length + 4), .block, .peerAppend wire, .hostWrite (regAddr s.params .cmd) 4 (encode .recv)] ∧
      ∃ u : State, core.run 4 s = .next u ∧ u.result = true ∧ u.txs = s.txs ++ wire :=
  ⟨roundTripState, [0xFF#8, 0xFF#8, 0x10#8], [0xE0#8, 0x00#8, 0x04#8, 0xFF#8, 0xFF#8, 0x10#8, 0x12#8], rfl, rfl, rfl, rfl,
    by decide, by unfold Memory.holds; decide, fun _ => by decide, rfl, _, rfl, rfl, by decide⟩

/-- The hypotheses of SingleByteCorruptionIsReported under FULL, for any payload and any two bytes. -/
theorem corruption_hypotheses (p q : List Byte) (b c : Byte) : ∃ s : State,
    s.seq = .idle ∧ s.hostStopped = false ∧ s.blockStopped = false ∧ s.pending = none ∧
      (s.params.availCheck = .lowByte → (p ++ b :: q).length + 1 ≤ 255) ∧
      s.rxq = [0xE0#8, BitVec.ofNat 8 (((p ++ b :: q).length + 1) / 256),
        BitVec.ofNat 8 (((p ++ b :: q).length + 1) % 256)] ++ (p ++ c :: q) ++ [checksum (p ++ b :: q)] ∧
      s.moves = .hostWrite (regAddr s.params .cmd) 4 0x00000002#32 ::
        (List.replicate ((p ++ b :: q).length + 6) .block ++ [.replyOk 5, .block]) :=
  ⟨{ State.reset with
      params := { availCheck := .full, window := 0, logEnable := false }
      rxq := [0xE0#8, BitVec.ofNat 8 (((p ++ b :: q).length + 1) / 256),
        BitVec.ofNat 8 (((p ++ b :: q).length + 1) % 256)] ++ (p ++ c :: q) ++ [checksum (p ++ b :: q)]
      moves := cmd 0x00000002#32 ::
        (List.replicate ((p ++ b :: q).length + 6) .block ++ [.replyOk 5, .block]) },
    rfl, rfl, rfl, rfl, fun h => absurd (show AvailCheck.full = .lowByte from h) (by decide), rfl, rfl⟩

/-- V-RX-CORR under LOW_BYTE: payload 01 02, SUM 06, with its first byte changed to 03; and the longest payload. -/
theorem witness_SingleByteCorruptionIsReported :
    (∃ s : State, s.seq = .idle ∧ s.hostStopped = false ∧ s.blockStopped = false ∧ s.pending = none ∧
      s.params.availCheck = .lowByte ∧ s.rxq = [0xE0#8, 0x00#8, 0x03#8] ++ ([] ++ 0x03#8 :: [0x02#8]) ++ [0x06#8] ∧
      checksum ([] ++ 0x01#8 :: [0x02#8]) = 0x06#8 ∧
      s.moves = .hostWrite (regAddr s.params .cmd) 4 0x00000002#32 ::
        (List.replicate (2 + 6) .block ++ [.replyOk 5, .block])) ∧
    (0x01#8 : Byte) ≠ 0x03#8 ∧ ([] ++ 0x01#8 :: zeros 65533).length ≤ 65534 :=
  ⟨⟨{ State.reset with
        rxq := [0xE0#8, 0x00#8, 0x03#8, 0x03#8, 0x02#8, 0x06#8]
        moves := cmd 0x00000002#32 :: (List.replicate (2 + 6) .block ++ [.replyOk 5, .block]) },
      rfl, rfl, rfl, rfl, rfl, rfl, by decide, rfl⟩, by decide, by simp⟩

/-! ### The host window -/

/-- A read of n bytes at an offset of the window, at the default BASE. -/
def rd (off n : Nat) : Move := .hostRead (State.reset.params.base + off) n

/-- A write of n bytes at an offset of the window, at the default BASE. -/
def wr (off n : Nat) (v : Word) : Move := .hostWrite (State.reset.params.base + off) n v

theorem witness_BusyReadsOneExactlyWhileNotIdle : ∀ q ∈ [Machine.Seq.idle, .rxErrf],
    let s : State := { during .recv q with moves := [rd 0x4 4] }
    s.hostStopped = false ∧ s.seq = q ∧ s.moves = .hostRead (regAddr s.params .status) 4 :: [] :=
  fun _ _ => ⟨rfl, rfl, rfl⟩

theorem witness_StatusFieldsWhenIdle :
    let s : State := { State.reset with moves := [rd 0x4 4] }
    s.hostStopped = false ∧ s.seq = .idle ∧ s.moves = .hostRead (regAddr s.params .status) 4 :: [] := ⟨rfl, rfl, rfl⟩

theorem witness_TxpAccess_write : ∀ q ∈ [Machine.Seq.idle, .csRun],
    let s : State := { during .csum q with moves := [wr 0x1FFFD 1 0x5AA#32] }
    s.hostStopped = false ∧ 65533 < 65534 ∧ s.moves = .hostWrite (txpAddr s.params 65533) 1 0x5AA#32 :: [] ∧ s.seq = q :=
  fun _ _ => ⟨rfl, by decide, rfl, rfl⟩

theorem witness_TxpAccess_read : ∀ q ∈ [Machine.Seq.idle, .csRun],
    let s : State := { during .csum q with txp := [(0, 0xAA#8)], moves := [rd 0x10000 1] }
    let u : State := { during .csum q with moves := [rd 0x1FFFD 1] }
    (s.hostStopped = false ∧ s.moves = .hostRead (txpAddr s.params 0) 1 :: [] ∧ s.seq = q ∧
      Memory.read s.txp 0 = some 0xAA#8) ∧
    (u.hostStopped = false ∧ u.moves = .hostRead (txpAddr u.params 65533) 1 :: [] ∧ u.seq = q ∧
      Memory.read u.txp 65533 = none) :=
  fun _ _ => ⟨⟨rfl, rfl, rfl, rfl⟩, ⟨rfl, rfl, rfl, rfl⟩⟩

theorem witness_TxpAccess_size :
    let s : State := { State.reset with moves := [rd 0x10000 4] }
    let u : State := { State.reset with moves := [wr 0x1FFFD 2 0] }
    (s.hostStopped = false ∧ 4 ≠ 1 ∧ s.seq = .idle ∧ s.moves = .hostRead (txpAddr s.params 0) 4 :: []) ∧
      (u.hostStopped = false ∧ 2 ≠ 1 ∧ u.seq = .idle ∧ u.moves = .hostWrite (txpAddr u.params 65533) 2 0 :: []) :=
  ⟨⟨rfl, by decide, rfl, rfl⟩, ⟨rfl, by decide, rfl, rfl⟩⟩

/-- The last byte of the longest frame, and the byte just past a frame of one. -/
theorem witness_RxpAccess :
    let s : State := { State.reset with
      rxPresent := true, rxLen := 65534#32, rxp := [(65533, 0x07#8)], moves := [rd 0x2FFFD 1] }
    let u : State := { State.reset with rxPresent := true, rxLen := 1#32, moves := [rd 0x20001 1] }
    let v : State := { during .recv .rxPay with moves := [rd 0x20000 1] }
    let w : State := { State.reset with moves := [rd 0x20000 4] }
    (w.hostStopped = false ∧ w.seq = .idle ∧ w.moves = .hostRead (rxpAddr w.params 0) 4 :: []) ∧
    (s.hostStopped = false ∧ s.moves = .hostRead (rxpAddr s.params 65533) 1 :: [] ∧ s.seq = .idle ∧
      s.rxPresent = true ∧ 65533 < s.rxLen.toNat % 65536 ∧ Memory.read s.rxp 65533 = some 0x07#8) ∧
    (u.hostStopped = false ∧ u.moves = .hostRead (rxpAddr u.params 1) 1 :: [] ∧ u.seq = .idle ∧
      ¬ (u.rxPresent = true ∧ 1 < u.rxLen.toNat % 65536)) ∧
    (v.hostStopped = false ∧ v.moves = .hostRead (rxpAddr v.params 0) 1 :: [] ∧ v.seq ≠ .idle) := by decide

theorem witness_ResultRegisterReads : ∀ q ∈ [Machine.Seq.idle, .txWrite], ∀ v ∈ [true, false],
    ∀ r ∈ [Reg.rxLen, .rxInfo, .lastSum, .txWritten],
    let s : State := { during .send q with sumValid := v, moves := [rd (regOffset r) 4] }
    s.hostStopped = false ∧ s.moves = .hostRead (regAddr s.params r) 4 :: [] ∧ s.seq = q ∧ s.sumValid = v :=
  fun _ _ _ _ _ _ => ⟨rfl, rfl, rfl, rfl⟩

/-- V-F-CMDR, V-F-UNM, an address inside a register, and the last address of the window. -/
theorem witness_ForbiddenAccessesAreHostAccessFaults_read :
    ∀ a ∈ [(0x0, 4), (0x18, 4), (0x1FFFE, 1), (0x30000, 4), (0x1, 1), (0x3FFFF, 1)],
      a.1 < 0x40000 ∧ ({ State.reset with moves := [rd a.1 a.2] } : State).hostStopped = false ∧
        ({ State.reset with moves := [rd a.1 a.2] } : State).moves =
          .hostRead (State.reset.params.base + a.1) a.2 :: [] ∧
        (a.1 = 0x0 ∨ (a.1 ∉ [0x0, 0x4, 0x8, 0xC, 0x10, 0x14] ∧ ¬ (0x10000 ≤ a.1 ∧ a.1 ≤ 0x1FFFD) ∧
          ¬ (0x20000 ≤ a.1 ∧ a.1 ≤ 0x2FFFD))) := by decide

/-- V-F-STW, V-F-RXPW, and writes to unmapped addresses. -/
theorem witness_ForbiddenAccessesAreHostAccessFaults_write :
    ∀ a ∈ [(0x4, 4), (0x14, 4), (0x20000, 1), (0x2FFFD, 1), (0x2FFFE, 1), (0x18, 4)],
      a.1 < 0x40000 ∧ ({ State.reset with moves := [wr a.1 a.2 0] } : State).hostStopped = false ∧
        ({ State.reset with moves := [wr a.1 a.2 0] } : State).moves =
          .hostWrite (State.reset.params.base + a.1) a.2 0 :: [] ∧
        (a.1 ∈ [0x4, 0x8, 0xC, 0x10, 0x14] ∨ (0x20000 ≤ a.1 ∧ a.1 ≤ 0x2FFFD) ∨
          (a.1 ∉ [0x0, 0x4, 0x8, 0xC, 0x10, 0x14] ∧ ¬ (0x10000 ≤ a.1 ∧ a.1 ≤ 0x1FFFD) ∧
            ¬ (0x20000 ≤ a.1 ∧ a.1 ≤ 0x2FFFD))) := by decide

/-- V-F-W16 and V-F-TXP32. -/
theorem witness_WrongSizesAreHostAccessFaults :
    let s : State := { during .recv .rxPay with moves := [rd 0x4 2] }
    let u : State := { State.reset with moves := [wr 0x10000 4 0] }
    (s.hostStopped = false ∧ 0x4 ∈ [0x0, 0x4, 0x8, 0xC, 0x10, 0x14] ∧ 2 ≠ 4 ∧
      s.moves = .hostRead (s.params.base + 0x4) 2 :: []) ∧
    (u.hostStopped = false ∧ 0x10000 ≤ 0x10000 ∧ 0x10000 ≤ 0x1FFFD ∧ 4 ≠ 1 ∧
      u.moves = .hostWrite (u.params.base + 0x10000) 4 0 :: []) := by decide

/-! ### The other agents and the whole machine -/

theorem witness_RepliesDeliverAPrefix :
    let s (m : Move) : State := { during .recv .rxErrf with pending := some Config.errorFrame, moves := [m] }
    (∀ m ∈ [Move.replyOk 0, .replyOk 9, .replyErr 0, .replyErr 5],
      (s m).pending = some Config.errorFrame ∧ (s m).moves = m :: []) ∧ 5 ≤ Config.errorFrame.length := by decide

theorem witness_QueueMoves :
    let s : State := { State.reset with rxq := [0x01#8, 0x02#8], moves := [.hostDrop 2] }
    let v : State := { during .recv .rxHdr with moves := [.peerAppend [0xE0#8]] }
    (s.moves = .hostDrop 2 :: [] ∧ s.hostStopped = false ∧ s.seq = .idle ∧ 2 ≤ s.rxq.length) ∧
      v.moves = .peerAppend [0xE0#8] :: [] := by decide

theorem witness_MovesThatNoAgentHasStopTheMachine :
    let s (m : Move) : State := { during .recv .rxErrf with moves := [m] }
    let u : State := { during .recv .rxErrf with pending := some Config.errorFrame, moves := [.replyErr 6] }
    let v : State := { State.reset with abandoned := [[0xE0#8]], moves := [.settleAbandoned 2] }
    ((s (.replyOk 5)).moves = .replyOk 5 :: [] ∧ (s (.replyOk 5)).pending = none) ∧
      (u.moves = .replyErr 6 :: [] ∧ u.pending = some Config.errorFrame ∧ Config.errorFrame.length < 6) ∧
      (v.moves = .settleAbandoned 2 :: [] ∧ v.abandoned = [[0xE0#8]] ∧ [0xE0#8].length < 2) ∧
      ((s (.hostDrop 0)).moves = .hostDrop 0 :: [] ∧ (s (.hostDrop 0)).hostStopped = false ∧
        (s (.hostDrop 0)).seq ≠ .idle) := by decide

theorem witness_ResetInput :
    let s : State := { during .send .txWrite with pending := some (frameOf []), moves := [.reset] }
    let u : State := { State.reset with abandoned := [frameOf []], moves := [.settleAbandoned 4] }
    s.moves = .reset :: [] ∧
      (u.abandoned = frameOf [] :: [] ∧ 4 ≤ (frameOf []).length ∧ u.moves = .settleAbandoned 4 :: []) := by decide

/-- A RECV in RX_PAY, one of its two payload bytes received. -/
def receivingState : State :=
  { during .recv .rxPay with
    rxPresent := true
    h0 := 0xE0#8
    h2 := 0x03#8
    lenf := 3#16
    plen := 2#17
    rxLen := 2#32
    rxInfo := 0x000300E0#32
    idx := 1#17
    rxp := [(0, 0x80#8)]
    rxq := [0x80#8, 0x03#8] }

theorem witness_StepKeepsTheInvariant : ∃ s t : State, s.Inv ∧ step s = .next t ∧ s.seq = .rxPay := by
  refine ⟨receivingState, _, ⟨?_, ?_, ?_, ?_, ?_, ?_⟩, rfl, rfl⟩
  · unfold State.BuffersOk
    decide
  · unfold State.ReservedClear
    decide
  · show _ ∧ _ ∧ _ ∧ State.Receiving _ _
    unfold State.Receiving
    decide
  · unfold State.StatusOk
    decide
  · exact fun h => absurd rfl h
  · unfold State.FaultsOk
    decide

theorem witness_FaultsAreNeverRemoved : ∃ s t : State, step s = .next t ∧ s.faults = [.hazard, .unwrittenTxp] ∧
    s.hostStopped = true ∧ s.blockStopped = true ∧ s.moves = [.reset] :=
  ⟨{ State.reset with
      faults := [.hazard, .unwrittenTxp], hostStopped := true, blockStopped := true, moves := [.reset] },
    _, rfl, rfl, rfl, rfl, rfl⟩

theorem witness_StoppedAgentsTakeNoStep :
    let s : State := { State.reset with hostStopped := true, moves := [cmd 0x00000002#32] }
    let u : State := { during .csum .csRun with blockStopped := true, moves := [.block] }
    let v : State := { during .csum .csRun with blockStopped := true }
    let w : State := { State.reset with blockStopped := true, moves := [cmd 0x00000002#32] }
    (s.hostStopped = true ∧ (cmd 0x00000002#32).ofHost = true ∧ s.moves = cmd 0x00000002#32 :: []) ∧ (u.blockStopped = true ∧ u.moves = .block :: []) ∧
      (v.blockStopped = true ∧ v.moves = []) ∧
      (w.blockStopped = true ∧ w.seq = .idle ∧ w.moves = .hostWrite (regAddr w.params .cmd) 4 0x00000002#32 :: []) := by
  decide

theorem witness_LoggingChangesNothing : ∃ t, step receivingState = .next t := ⟨_, rfl⟩

/-- A SEND's own turn, and the peer's move while a RECV is in progress. -/
theorem witness_OnlyRecvChangesTheReceivedFrame :
    let u : State := { receivingState with moves := [.peerAppend [0xE0#8]] }
    (∃ t, step (during .send .txWrite) = .next t ∧ (during .send .txWrite).inFlight ≠ some .recv ∧
      (during .send .txWrite).moves.head? ≠ some .reset) ∧
    ∃ t, step u = .next t ∧ u.inFlight = some .recv ∧ u.moves.head? ≠ none ∧ u.moves.head? ≠ some .block ∧
      u.moves.head? ≠ some .reset :=
  ⟨⟨_, rfl, by decide, by decide⟩, ⟨_, rfl, by decide, by decide, by decide, by decide⟩⟩

/-- The host's write of the last byte of TXP, and a reset. -/
theorem witness_StreamsAndTxpChangeOnlyAsTheRulesSay_txp :
    (∃ s t : State, step s = .next t ∧ t.txp ≠ s.txp ∧ s.moves ≠ [.reset]) ∧
      ∃ s t : State, step s = .next t ∧ t.txp ≠ s.txp ∧ s.moves = [.reset] :=
  ⟨⟨{ State.reset with moves := [.hostWrite (txpAddr State.reset.params 65533) 1 0x01#32] },
      { State.reset with txp := [(65533, 0x01#8)] }, by
        rw [step_hostWrite (rest := []) rfl rfl (windowOffset_txpAddr (by decide)), placeOf_txp (by decide)]
        rfl, by decide, by decide⟩,
    ⟨{ State.reset with txp := [(0, 0x01#8)], moves := [.reset] }, _, rfl, by decide, rfl⟩⟩

/-- The three moves that deliver. -/
theorem witness_StreamsAndTxpChangeOnlyAsTheRulesSay_txs :
    ∀ m ∈ [Move.replyOk 1, .replyErr 5, .settleAbandoned 1], ∃ s t : State, s.moves = [m] ∧ step s = .next t ∧
      t.txs ≠ s.txs := by
  let s (m : Move) : State :=
    { during .recv .rxErrf with pending := some Config.errorFrame, abandoned := [[0xE0#8]], moves := [m] }
  simp only [List.mem_cons, List.not_mem_nil, or_false]
  rintro m (rfl | rfl | rfl)
  · exact ⟨s (.replyOk 1), _, rfl, rfl, by decide⟩
  · exact ⟨s (.replyErr 5), _, rfl, rfl, by decide⟩
  · exact ⟨s (.settleAbandoned 1), _, rfl, rfl, by decide⟩

/-- The three ways RXQ changes: an append, a drop, and the RECV's own turn. -/
theorem witness_StreamsAndTxpChangeOnlyAsTheRulesSay_rxq :
    (∃ t, step { State.reset with moves := [.peerAppend [0xE0#8]] } = .next t ∧ t.rxq = [0xE0#8]) ∧
      (∃ t, step { State.reset with rxq := [0x01#8, 0xE0#8], moves := [.hostDrop 1] } = .next t ∧ t.rxq = [0xE0#8]) ∧
      ∃ t, step receivingState = .next t ∧ receivingState.rxq = 0x80#8 :: t.rxq :=
  ⟨⟨_, rfl, rfl⟩, ⟨_, rfl, rfl⟩, ⟨_, rfl, rfl⟩⟩

theorem witness_SequencerMovesForward :
    ∃ t, step receivingState = .next t ∧ receivingState.moves.head? ≠ some .reset ∧ t.seq = .rxSum :=
  ⟨_, rfl, by decide, rfl⟩

theorem witness_RuleKeepingHostMeetsNoFault : ∃ s t : State, s.FaultFree ∧
    (∀ m rest, s.moves = m :: rest → keepsUsageRules m s) ∧ step s = .next t ∧ t.seq = .txAsm := by
  refine ⟨{ State.reset with txp := [(0, 0x01#8)], moves := [cmd 0x00010001#32] }, _, ?_, ?_,
    step_command rfl rfl rfl rfl (i := .send 1#16) (by decide), rfl⟩
  · unfold State.FaultFree
    decide
  · intro m rest h
    cases h
    intro off ho
    rw [windowOffset_regAddr State.reset.params .cmd] at ho
    cases ho
    have hd : decode 0x00010001#32 = .command (.send 1#16) := by decide
    refine ⟨rfl, rfl, ?_⟩
    simp only [payloadReady, hd]
    decide

theorem witness_MachineStopsOnlyOnMovesOutsideTheSpec_outsideWindow :
    step { State.reset with moves := [rd 0x40000 4] } = .fault .outsideWindow := by
  have h (p : Params) : windowOffset p (p.base + 0x40000) = none := windowOffset_eq_none.2 (by omega)
  rw [step_cons (m := rd 0x40000 4) (rest := []) rfl, rd, takeMove, byHost_running rfl, hostRead, h]

/-- One move for each of the four cases of noSuchMove. -/
theorem witness_MachineStopsOnlyOnMovesOutsideTheSpec_noSuchMove :
    step { State.reset with moves := [.replyOk 1] } = .fault .noSuchMove ∧
      step { during .recv .rxErrf with pending := some Config.errorFrame, moves := [.replyErr 6] } =
        .fault .noSuchMove ∧
      step { State.reset with abandoned := [[0xE0#8]], moves := [.settleAbandoned 2] } = .fault .noSuchMove ∧
      step { State.reset with rxq := [0x01#8], moves := [.hostDrop 2] } = .fault .noSuchMove :=
  ⟨rfl, rfl, rfl, rfl⟩

/-- The peer's append, which both clauses cover, and a command word written to a busy block, which the second does. -/
theorem witness_StoppedAgentsDoNotHinderTheOthers :
    let s : State := { during .csum .csRun with moves := [.peerAppend [0xE0#8]] }
    let u : State := { during .csum .csRun with moves := [cmd 0x00000002#32] }
    (∀ m ∈ s.moves.head?, m.ofHost = false) ∧
      (s.moves.head? ≠ none ∧ s.moves.head? ≠ some .block ∧ s.seq ≠ .idle) ∧
      (u.moves.head? ≠ none ∧ u.moves.head? ≠ some .block ∧ u.seq ≠ .idle) := by decide

/-- A RECV's error frame answered while a request of a SEND that a reset abandoned may still deliver. -/
theorem witness_LaterRequestsSilenceAbandonedOnes :
    let s (m : Move) : State :=
      { during .recv .rxErrf with pending := some Config.errorFrame, abandoned := [[0xE0#8]], moves := [m] }
    (∀ m ∈ [Move.replyOk 0, .replyOk 5, .replyErr 0, .replyErr 5],
      (s m).pending = some Config.errorFrame ∧ (s m).moves = m :: []) ∧ 5 ≤ Config.errorFrame.length ∧
      ∃ t, step (s (.replyOk 1)) = .next t ∧ t.abandoned ≠ (s (.replyOk 1)).abandoned :=
  ⟨by decide, by decide, _, rfl, by decide⟩

end Sys2Proof.Tests
end

section
/-! PROOFS. What a read of STATUS answers, its word field by field, and the frame of every step that is not a RECV's own
turn: the ReceivedFrame and RX_INFO keep their values. -/

namespace Sys2Proof.Machine

/-! ## STATUS -/

/-- A field of a register, from its number: what is left above bit i, modulo the field's width. -/
theorem extractLsb'_eq_of_toNat {w : Word} {i k : Nat} {f : BitVec k} (h : w.toNat / 2 ^ i % 2 ^ k = f.toNat) :
    w.extractLsb' i k = f := by
  apply BitVec.eq_of_toNat_eq
  rw [BitVec.extractLsb'_toNat, Nat.shiftRight_eq_div_pow, h]

/-- A one-bit field read as a flag. -/
theorem getLsbD_of_extractLsb'_eq_bit {w : Word} {i : Nat} {b : Bool} (h : w.extractLsb' i 1 = bit b) :
    w.getLsbD i = b := by
  have h0 := congrArg (·.getLsbD 0) h
  simpa [bit] using h0

/-- STATUS of an idle block as a number. The flags stay one-bit words, whose bounds omega knows. -/
theorem statusWord_toNat (s : State) :
    (statusWord s).toNat =
      (errCode s.err).toNat * 4096 + (bit s.errFrame).toNat * 256 + (bit s.sumValid).toNat * 128 +
        (bit s.rxPresent).toNat * 64 + (bit s.rxValid).toNat * 32 + (bit s.result).toNat * 16 +
        (lastOpCode s.lastOp).toNat * 2 := by
  rw [statusWord]
  iterate 9 rw [append_toNat]
  simp only [BitVec.toNat_ofNat]
  omega

/-- The layout of STATUS while BUSY is 0, from bit 0 up (R24 to R32). -/
theorem statusWord_fields (s : State) :
    (statusWord s).extractLsb' 0 1 = 0#1 ∧ (statusWord s).extractLsb' 1 3 = lastOpCode s.lastOp ∧
      (statusWord s).extractLsb' 4 1 = bit s.result ∧ (statusWord s).extractLsb' 5 1 = bit s.rxValid ∧
      (statusWord s).extractLsb' 6 1 = bit s.rxPresent ∧ (statusWord s).extractLsb' 7 1 = bit s.sumValid ∧
      (statusWord s).extractLsb' 8 1 = bit s.errFrame ∧ (statusWord s).extractLsb' 9 3 = 0#3 ∧
      (statusWord s).extractLsb' 12 4 = errCode s.err ∧ (statusWord s).extractLsb' 16 16 = 0#16 := by
  refine ⟨?_, ?_, ?_, ?_, ?_, ?_, ?_, ?_, ?_, ?_⟩
  all_goals
    apply extractLsb'_eq_of_toNat
    simp only [statusWord_toNat, BitVec.toNat_ofNat]
    omega

/-- Bit 0 of STATUS reads 1 while BUSY is 1, whatever the free draw is (R22, R24). -/
theorem busyStatusWord_bit0 (s : State) : (busyStatusWord s).extractLsb' 0 1 = 1#1 :=
  BitVec.extractLsb'_append_eq_right

theorem readStatus_idle {s : State} (h : s.seq = .idle) :
    readStatus s = .next { s with readData := statusWord s } := by
  rw [readStatus, busy_eq_false.2 h]
  rfl

theorem readStatus_busy {s : State} (h : s.seq ≠ .idle) :
    readStatus s = .next { s with readData := busyStatusWord s, draws := s.draws + 1 } := by
  rw [readStatus, busy_eq_true.2 h]
  rfl

/-- A whole read of STATUS by a running host. -/
theorem step_readStatus {s : State} {rest : List Move} (hh : s.hostStopped = false)
    (hm : s.moves = .hostRead (regAddr s.params .status) 4 :: rest) :
    step s = readStatus { s with moves := rest } := by
  rw [step_readReg hh hm, readPlace, if_pos rfl]

/-- Settles O32: the read answers `statusWord` in IDLE and `busyStatusWord` otherwise, and the two differ in bit 0. -/
theorem busyReadsOneExactlyWhileNotIdle : Obligations.BusyReadsOneExactlyWhileNotIdle := by
  intro s rest hh hm
  by_cases hs : s.seq = .idle
  · have hbit : (statusWord { s with moves := rest }).extractLsb' 0 1 = 0#1 := (statusWord_fields _).1
    exact ⟨_, (step_readStatus hh hm).trans (readStatus_idle hs), rfl, iff_of_false (by simp only [hbit]; decide) (not_not.2 hs)⟩
  · have hbit := busyStatusWord_bit0 { s with moves := rest }
    exact ⟨_, (step_readStatus hh hm).trans (readStatus_busy hs), rfl, iff_of_true hbit hs⟩

/-- Settles O33: the read answers `statusWord`, whose layout is `statusWord_fields`. -/
theorem statusFieldsWhenIdle : Obligations.StatusFieldsWhenIdle := by
  intro s rest hh hs hm
  obtain ⟨hbusy, hop, hresult, hvalid, hpresent, hsum, herrf, hlow, herr, hhigh⟩ := statusWord_fields s
  refine ⟨statusWord s, (step_readStatus hh hm).trans (readStatus_idle hs), hbusy, ?_,
    getLsbD_of_extractLsb'_eq_bit hresult, getLsbD_of_extractLsb'_eq_bit hvalid,
    getLsbD_of_extractLsb'_eq_bit hpresent, getLsbD_of_extractLsb'_eq_bit hsum,
    getLsbD_of_extractLsb'_eq_bit herrf, hlow, ?_, hhigh⟩
  · rw [hop]
    cases s.lastOp <;> rfl
  · rw [herr]
    cases s.err <;> rfl

/-! ## The ReceivedFrame -/

/-- What R35 names: the ReceivedFrame and RX_INFO, the whole buffer RXP included. -/
structure ReceivedFrame where
  rxLen : Word
  rxInfo : Word
  rxValid : Bool
  rxPresent : Bool
  errFrame : Bool
  rxp : Memory

/-- The ReceivedFrame a state holds. -/
def State.receivedFrame (s : State) : ReceivedFrame where
  rxLen := s.rxLen
  rxInfo := s.rxInfo
  rxValid := s.rxValid
  rxPresent := s.rxPresent
  errFrame := s.errFrame
  rxp := s.rxp

/-- A command's accept leaves the ReceivedFrame, a RECV's too: it is RX_VALIDATE that releases the last one (R164). -/
theorem acceptOf_receivedFrame (i : Instr) (s : State) : (acceptOf i s).receivedFrame = s.receivedFrame := by
  cases i <;> rfl

theorem sendAssemble_receivedFrame (s : State) : (sendAssemble s).receivedFrame = s.receivedFrame := by
  obtain ⟨-, h⟩ | ⟨-, -, h⟩ | ⟨p, -, -, -, h⟩ := sendAssemble_cases s
  all_goals
    rw [h]
    rfl

theorem sendReply_receivedFrame (s : State) : (sendReply s).receivedFrame = s.receivedFrame := by
  obtain ⟨-, h⟩ | ⟨ok, -, -, h⟩ := sendReply_cases s
  · rw [h]
  · rw [h]
    rfl

theorem csumRun_receivedFrame (s : State) : (csumRun s).receivedFrame = s.receivedFrame := by
  obtain ⟨-, h⟩ | ⟨-, -, h⟩ | ⟨p, -, -, h⟩ := csumRun_cases s
  all_goals
    rw [h]
    rfl

/-- The block's turn in any command but a RECV leaves the ReceivedFrame. -/
theorem advance_receivedFrame {s : State} (h : s.inFlight ≠ some .recv) :
    (advance s).receivedFrame = s.receivedFrame := by
  cases hs : s.seq with
  | idle => rw [advance, hs]
  | txAsm =>
    rw [advance, hs]
    exact sendAssemble_receivedFrame s
  | txWrite =>
    rw [advance, hs]
    exact sendReply_receivedFrame s
  | csRun =>
    rw [advance, hs]
    exact csumRun_receivedFrame s
  | rxHdr | rxValidate | rxPay | rxSum | rxVerify | rxErrf => exact absurd (by rw [State.inFlight, hs]) h

/-- Of all a move can do, only a RECV's own turn and a reset change the ReceivedFrame. -/
theorem Effect.receivedFrame_eq {s t : State} {m : Option Move} (e : Effect s m t)
    (hrecv : s.inFlight = some .recv → m ≠ none ∧ m ≠ some .block) (hreset : m ≠ some .reset) :
    t.receivedFrame = s.receivedFrame := by
  cases e with
  | accept v i => exact acceptOf_receivedFrame i s
  | reset => exact absurd rfl hreset
  | advance _ hm =>
    refine advance_receivedFrame fun hi => ?_
    obtain ⟨hnone, hblock⟩ := hrecv hi
    exact hm.elim hnone hblock
  | _ => rfl

/-- Settles O49: a step is one of the effects of `step_effect`, and `Effect.receivedFrame_eq` goes through them. -/
theorem onlyRecvChangesTheReceivedFrame : Obligations.OnlyRecvChangesTheReceivedFrame := by
  intro s t h hrecv hreset
  have heq : t.receivedFrame = s.receivedFrame := (step_effect h).receivedFrame_eq hrecv hreset
  obtain ⟨hlen, hinfo, hvalid, hpresent, herrf, hrxp⟩ := ReceivedFrame.mk.inj heq
  exact ⟨hlen, hinfo, hvalid, hpresent, herrf, fun a => congrArg (Memory.read · a) hrxp⟩

end Sys2Proof.Machine
end

section
/-! PROOFS. The host window's read of RXP, the accesses the window forbids, and what the transport's reply delivers. -/

namespace Sys2Proof.Machine

/-! ## RXP -/

/-- RX_LEN.LENGTH is the register modulo 65536 (R33). -/
theorem rxLength_eq (s : State) : rxLength s = s.rxLen.toNat % 65536 := by
  rw [rxLength, BitVec.extractLsb'_toNat, Nat.shiftRight_zero]

theorem readRxp_busy {s : State} (h : s.seq ≠ .idle) (i : Nat) : readRxp i s = .next (hostFault .hazard s) := by
  rw [readRxp, if_pos (busy_eq_true.2 h), faultHost]

theorem readRxp_live {s : State} {i : Nat} (hs : s.seq = .idle)
    (hlive : s.rxPresent = true ∧ i < s.rxLen.toNat % 65536) :
    readRxp i s = .next { s with readData := (rxpByte s.rxp i).setWidth 32 } := by
  rw [readRxp, busy_eq_false.2 hs, rxLength_eq, if_neg Bool.false_ne_true, if_pos hlive, returnData]

theorem readRxp_outside {s : State} {i : Nat} (hs : s.seq = .idle)
    (hlive : ¬ (s.rxPresent = true ∧ i < s.rxLen.toNat % 65536)) :
    readRxp i s = .next (hostFault .rxpRange s) := by
  rw [readRxp, busy_eq_false.2 hs, rxLength_eq, if_neg Bool.false_ne_true, if_neg hlive, faultHost]

/-- A byte that has been written to RXP is the one that stands there; only the others are free values (R39). -/
theorem rxpByte_of_read {m : Memory} {i : Nat} {c : Byte} (h : Memory.read m i = some c) : rxpByte m i = c := by
  rw [rxpByte, h, Option.getD_some]

/-- A read by a running host at the address of RXP[i], of any size. -/
theorem step_hostRead_rxp {s : State} {i n : Nat} {rest : List Move} (hh : s.hostStopped = false) (hi : i < 65534)
    (hm : s.moves = .hostRead (rxpAddr s.params i) n :: rest) :
    step s = readPlace (.rxp i) n { s with moves := rest } := by
  rw [step_hostRead hh hm (windowOffset_rxpAddr hi), placeOf_rxp hi]

/-- Settles O35: a read of one byte is `readRxp`, which has one lemma per case of R54; any other size fails the width
check before it. -/
theorem rxpAccess : Obligations.RxpAccess := by
  intro s i rest hh hi
  refine ⟨fun hm => ?_, fun n hn _ hm => ?_⟩
  · have hstep : step s = readRxp i { s with moves := rest } := by
      rw [step_hostRead_rxp hh hi hm, readPlace, if_pos rfl]
    rw [hstep]
    refine ⟨fun hs hp hl => ?_, fun hs => ?_, fun hs hlive => ?_⟩
    · exact ⟨rxpByte s.rxp i, fun _ hc => rxpByte_of_read hc, readRxp_live hs ⟨hp, hl⟩⟩
    · exact readRxp_busy (s := { s with moves := rest }) hs i
    · exact readRxp_outside hs hlive
  · rw [step_hostRead_rxp hh hi hm, readPlace, if_neg hn, faultHost]

/-! ## Forbidden accesses -/

/-- An offset that is no register's and lies in neither buffer is unmapped (R50). -/
theorem placeOf_unmapped {off : Nat} (hreg : off ∉ [0x0, 0x4, 0x8, 0xC, 0x10, 0x14])
    (htxp : ¬ (0x10000 ≤ off ∧ off ≤ 0x1FFFD)) (hrxp : ¬ (0x20000 ≤ off ∧ off ≤ 0x2FFFD)) :
    placeOf off = .unmapped := by
  cases hp : placeOf off with
  | reg r =>
    obtain rfl := placeOf_eq_reg hp
    exact absurd (by cases r <;> decide) hreg
  | txp i =>
    obtain ⟨rfl, hi⟩ := placeOf_eq_txp hp
    simp only [txpOffset] at htxp
    omega
  | rxp i =>
    obtain ⟨rfl, hi⟩ := placeOf_eq_rxp hp
    simp only [rxpOffset] at hrxp
    omega
  | unmapped => rfl

/-- The offsets from RXP[0] to RXP[65533] (R50). -/
theorem placeOf_rxp_of_mem {off : Nat} (h : 0x20000 ≤ off ∧ off ≤ 0x2FFFD) :
    placeOf off = .rxp (off - rxpOffset) := by
  obtain ⟨i, rfl⟩ := Nat.exists_eq_add_of_le h.1
  exact (placeOf_rxp (by omega)).trans (by rw [rxpOffset, Nat.add_sub_cancel_left])

/-- The offsets of the registers that a write may not touch: all but CMD (R50, R52). -/
theorem placeOf_readOnlyReg {off : Nat} (h : off ∈ [0x4, 0x8, 0xC, 0x10, 0x14]) :
    ∃ r, r ≠ .cmd ∧ placeOf off = .reg r := by
  simp only [List.mem_cons, List.not_mem_nil, or_false] at h
  obtain rfl | rfl | rfl | rfl | rfl := h
  · exact ⟨.status, by decide, rfl⟩
  · exact ⟨.rxLen, by decide, rfl⟩
  · exact ⟨.rxInfo, by decide, rfl⟩
  · exact ⟨.lastSum, by decide, rfl⟩
  · exact ⟨.txWritten, by decide, rfl⟩

theorem readPlace_cmd (n : Nat) (s : State) : readPlace (.reg .cmd) n s = .next (hostFault .hostAccess s) := rfl

theorem readPlace_unmapped (n : Nat) (s : State) : readPlace .unmapped n s = .next (hostFault .hostAccess s) := rfl

theorem writePlace_readOnlyReg {r : Reg} (h : r ≠ .cmd) (n : Nat) (v : Word) (s : State) :
    writePlace (.reg r) n v s = .next (hostFault .hostAccess s) := by
  cases r with
  | cmd => exact absurd rfl h
  | status | rxLen | rxInfo | lastSum | txWritten => rfl

theorem writePlace_rxp (i n : Nat) (v : Word) (s : State) :
    writePlace (.rxp i) n v s = .next (hostFault .hostAccess s) := rfl

theorem writePlace_unmapped (n : Nat) (v : Word) (s : State) :
    writePlace .unmapped n v s = .next (hostFault .hostAccess s) := rfl

/-- Settles O37: each offset of R52 is a place of the map whose read or write is refused before the size and the state
are looked at. -/
theorem forbiddenAccessesAreHostAccessFaults : Obligations.ForbiddenAccessesAreHostAccessFaults := by
  intro s off n rest hh hoff unmapped
  have hplace : unmapped → placeOf off = .unmapped := fun ⟨hreg, htxp, hrxp⟩ => placeOf_unmapped hreg htxp hrxp
  refine ⟨fun hm hcase => ?_, fun v hm hcase => ?_⟩
  · rw [step_hostRead hh hm (windowOffset_base_add hoff)]
    obtain rfl | hun := hcase
    · exact readPlace_cmd n _
    · rw [hplace hun, readPlace_unmapped]
  · rw [step_hostWrite hh hm (windowOffset_base_add hoff)]
    obtain hreg | hrxp | hun := hcase
    · obtain ⟨r, hr, hp⟩ := placeOf_readOnlyReg hreg
      rw [hp, writePlace_readOnlyReg hr]
    · rw [placeOf_rxp_of_mem hrxp, writePlace_rxp]
    · rw [hplace hun, writePlace_unmapped]

/-! ## The transport's reply -/

/-- A reply OK(k) to the pending request. -/
theorem step_replyOk {s : State} {b : List Byte} {k : Nat} {rest : List Move} (hp : s.pending = some b)
    (hm : s.moves = .replyOk k :: rest) : step s = .next (answer (.ok k) k b { s with moves := rest }) := by
  rw [step_cons hm, takeMove, replyOk, hp]

/-- A reply ERR to the pending request, of which it may deliver at most all. -/
theorem step_replyErr {s : State} {b : List Byte} {p : Nat} {rest : List Move} (hp : s.pending = some b)
    (hle : p ≤ b.length) (hm : s.moves = .replyErr p :: rest) :
    step s = .next (answer .err p b { s with moves := rest }) := by
  rw [step_cons hm, takeMove, replyErr, hp]
  exact if_neg (Nat.not_lt.2 hle)

/-- A reply writes TXS, the latch and the transport's requests, and nothing else (R63, R64). -/
theorem answer_frame (r : Reply) (count : Nat) (b : List Byte) (s : State) :
    answer r count b s =
      { s with
        txs := (answer r count b s).txs
        wreply := r
        pending := none
        abandoned := (answer r count b s).abandoned } := rfl

theorem answer_txs (r : Reply) (count : Nat) (b : List Byte) (s : State) :
    (answer r count b s).txs = s.txs ++ b.take count := rfl

/-- Settles O39: both replies are `answer`, which appends the request's first bytes; a count past its end takes all. -/
theorem repliesDeliverAPrefix : Obligations.RepliesDeliverAPrefix := by
  intro s b rest hp
  refine ⟨fun k hm => ⟨_, step_replyOk hp hm, ?_, answer_frame _ _ _ _⟩,
    fun p hle hm => ⟨_, step_replyErr hp hle hm, answer_txs _ _ _ _, answer_frame _ _ _ _⟩⟩
  rw [answer_txs, ← List.take_eq_take_min]

end Sys2Proof.Machine
end

section
/-! PROOFS. What each command word decodes to, by the numbers of the rows of R85, and what a write of a word to CMD
does. -/

namespace Sys2Proof.Machine

/-! ## The decoder, row by row -/

theorem wordOp_eq_iff {w : Word} {op : BitVec 4} : wordOp w = op ↔ w.toNat % 16 = op.toNat := by
  rw [← BitVec.toNat_inj, wordOp_toNat]

theorem wordRsv_eq_zero_iff {w : Word} : wordRsv w = 0#12 ↔ w.toNat / 16 % 4096 = 0 := by
  rw [← BitVec.toNat_inj, wordRsv_toNat, BitVec.toNat_ofNat, Nat.zero_mod]

theorem wordLength_eq_zero_iff {w : Word} : wordLength w = 0#16 ↔ w.toNat / 65536 = 0 := by
  rw [← BitVec.toNat_inj, wordLength_toNat, BitVec.toNat_ofNat, Nat.zero_mod]

/-- LENGTH as a number of 16 bits (R82). -/
theorem wordLength_eq_ofNat (w : Word) : wordLength w = BitVec.ofNat 16 (w.toNat / 65536) := by
  rw [← wordLength_toNat, BitVec.ofNat_toNat, BitVec.setWidth_eq]

/-- The decoder's tests on the word's number. -/
theorem decode_eq (w : Word) :
    decode w =
      if w.toNat / 16 % 4096 ≠ 0 then .illegal .reservedBits
      else if w.toNat % 16 = 1 then .command (.send (wordLength w))
      else if w.toNat % 16 = 2 then
        if w.toNat / 65536 = 0 then .command .recv else .illegal .recvWithLength
      else if w.toNat % 16 = 3 then .command (.csum (wordLength w))
      else .illegal .unknownOp := by
  simp only [decode, ne_eq, wordRsv_eq_zero_iff, wordOp_eq_iff, wordLength_eq_zero_iff, BitVec.toNat_ofNat,
    Nat.reducePow, Nat.reduceMod]

/-- The row of SEND: the lower half of the word is 1. -/
theorem decode_send {w : Word} (h : w.toNat % 65536 = 1) : decode w = .command (.send (wordLength w)) := by
  rw [decode_eq, if_neg (by omega), if_pos (by omega)]

/-- The row of RECV: the whole word is 2. -/
theorem decode_recv {w : Word} (h : w.toNat = 2) : decode w = .command .recv := by
  rw [decode_eq, h]
  rfl

/-- The row of CSUM: the lower half of the word is 3. -/
theorem decode_csum {w : Word} (h : w.toNat % 65536 = 3) : decode w = .command (.csum (wordLength w)) := by
  rw [decode_eq, if_neg (by omega), if_neg (by omega), if_neg (by omega), if_pos (by omega)]

/-- A word of no row: RSV is not 0, or OP is 2 and LENGTH is not 0, or OP is unknown. -/
theorem decode_illegal {w : Word} (hsend : w.toNat % 65536 ≠ 1) (hrecv : w.toNat ≠ 2) (hcsum : w.toNat % 65536 ≠ 3) :
    ∃ why, decode w = .illegal why := by
  rw [decode_eq]
  by_cases hrsv : w.toNat / 16 % 4096 = 0
  · rw [if_neg (not_not.2 hrsv), if_neg (by omega)]
    by_cases hop : w.toNat % 16 = 2
    · exact ⟨.recvWithLength, by rw [if_pos hop, if_neg (by omega)]⟩
    · exact ⟨.unknownOp, by rw [if_neg hop, if_neg (by omega)]⟩
  · exact ⟨.reservedBits, if_pos hrsv⟩

/-- The illegal words are those of no row (R85). -/
theorem decode_illegal_iff {w : Word} :
    (∃ why, decode w = .illegal why) ↔ w.toNat % 65536 ≠ 1 ∧ w.toNat ≠ 2 ∧ w.toNat % 65536 ≠ 3 := by
  refine ⟨fun ⟨why, hd⟩ => ⟨fun h => ?_, fun h => ?_, fun h => ?_⟩, fun ⟨h1, h2, h3⟩ => decode_illegal h1 h2 h3⟩
  · cases (decode_send h).symm.trans hd
  · cases (decode_recv h).symm.trans hd
  · cases (decode_csum h).symm.trans hd

/-- The mask of SEND and CSUM keeps the lower half of the word. -/
theorem and_lowMask_eq_iff {w c : Word} : w &&& 0x0000FFFF#32 = c ↔ w.toNat % 65536 = c.toNat := by
  rw [← BitVec.toNat_inj, BitVec.toNat_and]
  exact Eq.congr_left (Nat.and_two_pow_sub_one_eq_mod w.toNat 16)

/-- The mask of RECV keeps every bit. -/
theorem and_fullMask_eq_iff {w c : Word} : w &&& 0xFFFFFFFF#32 = c ↔ w.toNat = c.toNat := by
  rw [← BitVec.toNat_inj]
  exact Eq.congr_left (congrArg BitVec.toNat (BitVec.and_allOnes (x := w)))

/-- Settles O2: a mask and match of a row is an equation about the word's number, and each row has its decode lemma. -/
theorem decodeFollowsMaskAndMatch : Obligations.DecodeFollowsMaskAndMatch := by
  intro w
  refine ⟨fun h => decode_send (and_lowMask_eq_iff.1 h), fun h => decode_recv (and_fullMask_eq_iff.1 h),
    fun h => decode_csum (and_lowMask_eq_iff.1 h), fun hsend hrecv hcsum => ?_⟩
  exact decode_illegal (fun h => hsend (and_lowMask_eq_iff.2 h)) (fun h => hrecv (and_fullMask_eq_iff.2 h))
    (fun h => hcsum (and_lowMask_eq_iff.2 h))

/-! ## The write of a word to CMD -/

/-- An illegal word that an idle block takes: the step is the rejection (R84, R216). -/
theorem step_illegal {s : State} {w : Word} {rest : List Move} (hs : s.seq = .idle) (hh : s.hostStopped = false)
    (hb : s.blockStopped = false) (hm : s.moves = .hostWrite (regAddr s.params .cmd) 4 w :: rest)
    (hd : ∃ why, decode w = .illegal why) : step s = .next (reject { s with moves := rest }) := by
  obtain ⟨why, hd⟩ := hd
  rw [step_writeCmd hh hm]
  exact writeCmd_illegal (s := { s with moves := rest }) hs hb hd

/-- Any word written to CMD while a command is in progress (R84). -/
theorem step_busyCommand {s : State} {w : Word} {rest : List Move} (hs : s.seq ≠ .idle) (hh : s.hostStopped = false)
    (hm : s.moves = .hostWrite (regAddr s.params .cmd) 4 w :: rest) :
    step s = .next (hostFault .busyCommand { s with moves := rest }) := by
  rw [step_writeCmd hh hm]
  exact writeCmd_busy (s := { s with moves := rest }) hs w

/-- Settles O3: R83's fields name the words of no row, and the step of such a word is `reject`. -/
theorem illegalWordsAreRejected : Obligations.IllegalWordsAreRejected := by
  intro w illegal
  have hillegal : (∃ why, decode w = .illegal why) ↔ illegal := decode_illegal_iff.trans (by omega)
  exact ⟨hillegal, fun s rest hs hh hb hm hw => step_illegal hs hh hb hm (hillegal.2 hw)⟩

/-- Settles O6: BUSY_COMMAND in a busy block; in an idle one, R84's tests in order select the word's row, and the step is
that row's accept, or the rejection where there is none. -/
theorem commandDecode : Obligations.CommandDecode := by
  intro s w rest hh hm op rsv len
  refine ⟨fun hs => ⟨addFault s.faults .busyCommand, mem_addFault _ _, step_busyCommand hs hh hm⟩, fun hs hb => ?_⟩
  have hlen : wordLength w = BitVec.ofNat 16 len := wordLength_eq_ofNat w
  split_ifs with hillegal hsend hrecv
  · exact step_illegal hs hh hb hm (decode_illegal (by omega) (by omega) (by omega))
  · rw [← hlen]
    exact step_command hs hh hb hm (decode_send (by omega))
  · exact step_command hs hh hb hm (decode_recv (by omega))
  · rw [← hlen]
    exact step_command hs hh hb hm (decode_csum (by omega))

end Sys2Proof.Machine
end

section
/-! PROOFS. The accumulator's fold, and CSUM: its step in CS_RUN, case by case. -/

namespace Sys2Proof.Machine

/-! ## The accumulator -/

theorem accAdd_toNat (a b : Byte) : (accAdd a b).toNat = (a.toNat + b.toNat) % 256 :=
  BitVec.toNat_add a b

/-- One more payload byte is one more ACC_ADD (R111). -/
theorem accumulate_concat (len : Half) (p : List Byte) (b : Byte) :
    accumulate len (p ++ [b]) = accAdd (accumulate len p) b :=
  List.foldl_concat accAdd (accInit len) b p

/-- Settles O9: ACC_INIT and ACC_ADD as numbers, the two equations of the fold, and the fold's value as a sum modulo 256
where LEN is the payload's length plus 1. -/
theorem accumulatorComputesTheChecksum : Obligations.AccumulatorComputesTheChecksum := by
  refine ⟨accInit_toNat, accAdd_toNat, accumulate_nil, accumulate_concat, fun len p hlen => ?_⟩
  rw [accumulate_toNat, hlen]

/-! ## CSUM -/

theorem csumRun_tooLong {s : State} (h : s.curLen.toNat = 65535) : csumRun s = finish false .txLengthError s := by
  rcases csumRun_cases s with ⟨-, hrun⟩ | ⟨hl, -⟩ | ⟨-, hl, -⟩
  · exact hrun
  · omega
  · omega

theorem csumRun_unwritten {s : State} (hl : s.curLen.toNat ≤ 65534)
    (h : ∃ i < s.curLen.toNat, Memory.read s.txp i = none) : csumRun s = blockFault .unwrittenTxp s := by
  rcases csumRun_cases s with ⟨hlong, -⟩ | ⟨-, -, hrun⟩ | ⟨p, -, hp, -⟩
  · omega
  · exact hrun
  · cases (operandPayload_eq_none.2 h).symm.trans hp

theorem csumRun_sum {s : State} {p : List Byte} (hl : s.curLen.toNat ≤ 65534) (hp : p.length = s.curLen.toNat)
    (h : s.txp.holds p) : csumRun s = finish true .none (latchSum (checksum p) s) := by
  have hread : operandPayload s = some p := operandPayload_eq_some.2 ⟨hp, h⟩
  rcases csumRun_cases s with ⟨hlong, -⟩ | ⟨-, hnone, -⟩ | ⟨q, -, hq, hrun⟩
  · omega
  · cases hnone.symm.trans hread
  · cases hq.symm.trans hread
    exact hrun

theorem exec_csum_csRun {s : State} (h : s.seq = .csRun) : exec (.csum s.curLen) s = .next (csumRun s) :=
  execCsum_csRun h

/-- Settles O11: the row of CSUM in the decoder, its accept, and in CS_RUN the step of each case of LENGTH and TXP. -/
theorem csumComputesOrReports : Obligations.CsumComputesOrReports := by
  refine ⟨fun w hw => decode_csum (and_lowMask_eq_iff.1 hw), fun s length hs => exec_idle hs (.csum length),
    checksum_toNat, fun s hs => ?_⟩
  rw [exec_csum_csRun hs]
  refine ⟨fun hlong => ?_, fun hl hunwritten => ?_, fun p hp hl hholds => ?_⟩
  · rw [csumRun_tooLong hlong]
    rfl
  · rw [csumRun_unwritten hl hunwritten]
    exact ⟨addFault s.faults .unwrittenTxp, mem_addFault s.faults .unwrittenTxp, rfl⟩
  · rw [csumRun_sum hl hp hholds]
    rfl

end Sys2Proof.Machine
end

section
/-! PROOFS. SEND: its step in TX_ASM and its step in TX_WRITE, case by case. -/

namespace Sys2Proof.Machine

/-! ## exec of the SEND in progress -/

theorem exec_send_txAsm {s : State} (h : s.seq = .txAsm) : exec (.send s.curLen) s = .next (sendAssemble s) :=
  execSend_txAsm h

theorem exec_send_txWrite {s : State} (h : s.seq = .txWrite) : exec (.send s.curLen) s = .next (sendReply s) :=
  execSend_txWrite h

/-! ## TX_ASM -/

theorem sendAssemble_tooLong {s : State} (h : s.curLen.toNat = 65535) :
    sendAssemble s = finish false .txLengthError { s with txWritten := 0#32 } := by
  rcases sendAssemble_cases s with ⟨-, hrun⟩ | ⟨hl, -⟩ | ⟨p, hl, -⟩
  · exact hrun
  · omega
  · omega

/-- With its payload in TXP, the assembly writes the frame at TXB[0] and makes it the request (R132 to R134). -/
theorem sendAssemble_frame {s : State} {p : List Byte} (hl : s.curLen.toNat ≤ 65534) (hp : p.length = s.curLen.toNat)
    (h : s.txp.holds p) :
    sendAssemble s = txWriteRequest (frameOf p)
      { latchSum (checksum p) s with txb := Memory.writeBytes s.txb 0 (frameOf p), seq := .txWrite } := by
  have hread : operandPayload s = some p := operandPayload_eq_some.2 ⟨hp, h⟩
  rcases sendAssemble_cases s with ⟨hlong, -⟩ | ⟨-, hnone, -⟩ | ⟨q, -, hq, hholds, hrun⟩
  · omega
  · cases hnone.symm.trans hread
  · cases (operandPayload_eq_some.2 ⟨hq, hholds⟩).symm.trans hread
    exact hrun

/-- Settles O13: the step of TX_ASM has one lemma per case of LENGTH, and TXB is a block write of the frame at 0, read
back inside the frame and the old byte past it. -/
theorem sendAssemblesTheFrame : Obligations.SendAssemblesTheFrame := by
  intro s hs
  rw [exec_send_txAsm hs]
  refine ⟨fun hlong => ?_, fun p hp hl hholds =>
    ⟨Memory.writeBytes s.txb 0 (frameOf p), ?_, fun i hi => ?_, fun a ha => ?_⟩⟩
  · rw [sendAssemble_tooLong hlong]
    rfl
  · rw [sendAssemble_frame hl hp hholds]
    rfl
  · have hi' : i < (frameOf p).length := by rwa [frameOf_length]
    have hread := Memory.read_writeBytes s.txb (a := 0) hi'
    rwa [Nat.zero_add] at hread
  · apply Memory.read_writeBytes_other
    rw [frameOf_length]
    omega

/-! ## TX_WRITE -/

/-- No step until the transport has replied (R135, R227). -/
theorem sendReply_waiting {s : State} {b : List Byte} (h : s.pending = some b) : sendReply s = s := by
  rcases sendReply_cases s with ⟨-, hrun⟩ | ⟨ok, hnone, -⟩
  · exact hrun
  · cases hnone.symm.trans h

/-- The one step after the reply ends the SEND with what `wroteAll` says of it (R136, R137). -/
theorem sendReply_replied {s : State} (h : s.pending = none) :
    sendReply s =
      finish (wroteAll s.wreply s.curLen.toNat)
        (if wroteAll s.wreply s.curLen.toNat then .none else .transmitIncomplete)
        { s with txWritten := txWrittenWord s.wreply } := by
  rcases sendReply_cases s with ⟨⟨b, hb⟩, -⟩ | ⟨ok, -, rfl, hrun⟩
  · cases h.symm.trans hb
  · exact hrun

theorem wroteAll_ok (k n : Nat) : wroteAll (.ok k) n = decide (k = n + 4) :=
  beq_eq_decide k (n + 4)

/-- The transport has written all of the frame exactly when its reply is OK(L + 4) (R26, R136). -/
theorem wroteAll_iff {r : Reply} {n : Nat} : wroteAll r n = true ↔ r = .ok (n + 4) := by
  cases r with
  | ok k => rw [wroteAll_ok, decide_eq_true_iff, Reply.ok.injEq]
  | err => exact iff_of_false Bool.false_ne_true nofun

/-- COUNT of TX_WRITTEN after OK(k): bits [16:0] hold k modulo 131072 (R37). -/
theorem txWrittenWord_count (k : Nat) : ((txWrittenWord (.ok k)).extractLsb' 0 17).toNat = k % 131072 := by
  rw [txWrittenWord, BitVec.extractLsb'_toNat, Nat.shiftRight_zero, BitVec.toNat_ofNat]
  omega

/-- Settles O15: the step after the reply is `sendReply_replied`, read for OK(k) and for ERR; RESULT 1 leaves only the
reply OK(L + 4), whose count is below 131072. -/
theorem sendReportsTheReply : Obligations.SendReportsTheReply := by
  intro s hs hp
  rw [exec_send_txWrite hs, sendReply_replied hp]
  refine ⟨fun k hk => ?_, fun herr => ?_, fun t ht hresult => ?_⟩
  · rw [hk, wroteAll_ok]
    simp only [decide_eq_true_eq]
    rfl
  · rw [herr]
    rfl
  · cases ht
    have hok : s.wreply = .ok (s.curLen.toNat + 4) := wroteAll_iff.1 hresult
    have hlt := s.curLen.isLt
    calc ((txWrittenWord s.wreply).extractLsb' 0 17).toNat
        _ = (s.curLen.toNat + 4) % 131072 := by rw [hok, txWrittenWord_count]
        _ = s.curLen.toNat + 4 := Nat.mod_eq_of_lt (by omega)

/-- Settles O16: without a reply the step changes nothing; after any reply it is a `finish`, which makes no request. -/
theorem sendWaitsAndNeverRetries : Obligations.SendWaitsAndNeverRetries := by
  intro s hs
  rw [exec_send_txWrite hs]
  refine ⟨fun b hb => ?_, fun hp => ⟨sendReply s, rfl, ?_⟩⟩
  · rw [sendReply_waiting hb]
  · rw [sendReply_replied hp]
    exact ⟨rfl, hp⟩

end Sys2Proof.Machine
end

section
/-! PROOFS. RECV: its step in each state of the decoder, case by case, and the transport's reply to its error frame. -/

namespace Sys2Proof.Machine

/-! ## exec of the RECV in progress -/

theorem exec_recv_rxHdr {s : State} (h : s.seq = .rxHdr) : exec .recv s = .next (recvHeader s) := by
  rw [exec, execRecv, h]

theorem exec_recv_rxValidate {s : State} (h : s.seq = .rxValidate) : exec .recv s = .next (recvValidate s) := by
  rw [exec, execRecv, h]

theorem exec_recv_rxPay {s : State} (h : s.seq = .rxPay) : exec .recv s = .next (recvPayload s) := by
  rw [exec, execRecv, h]

theorem exec_recv_rxSum {s : State} (h : s.seq = .rxSum) : exec .recv s = .next (recvSum s) := by
  rw [exec, execRecv, h]

theorem exec_recv_rxVerify {s : State} (h : s.seq = .rxVerify) : exec .recv s = .next (recvVerify s) := by
  rw [exec, execRecv, h]

theorem exec_recv_rxErrf {s : State} (h : s.seq = .rxErrf) : exec .recv s = .next (recvErrf s) := by
  rw [exec, execRecv, h]

/-! ## RX_HDR -/

/-- An empty RXQ blocks the header (R161, R227). -/
theorem recvHeader_waiting {s : State} (h : s.rxq = []) : recvHeader s = s := by
  rw [recvHeader, h]

/-- The head of RXQ goes to the header byte that IDX names (R161). -/
theorem recvHeader_byte {s : State} {b : Byte} {q : List Byte} (h : s.rxq = b :: q) :
    recvHeader s =
      { s with
        rxq := q
        h0 := if s.idx = 0#17 then b else s.h0
        h1 := if s.idx = 1#17 then b else s.h1
        h2 := if s.idx = 2#17 then b else s.h2
        idx := s.idx + 1#17
        seq := if s.idx + 1#17 = 3#17 then .rxValidate else .rxHdr } := by
  rw [recvHeader, h]

/-- Settles O19: the step is `recvHeader_byte`, read for each of the three values of IDX. -/
theorem recvReadsTheHeader : Obligations.RecvReadsTheHeader := by
  refine ⟨fun s hs hq => ?_, fun s b q hs hq => ?_⟩
  · rw [exec_recv_rxHdr hs, recvHeader_waiting hq]
  · rw [exec_recv_rxHdr hs, recvHeader_byte hq]
    refine ⟨fun hi => ?_, fun hi => ?_, fun hi => ?_⟩
    all_goals
      rw [hi, ← hs]
      rfl

/-! ## RX_VALIDATE -/

theorem recvValidate_passed {s : State}
    (h : lengthOk s.params.availCheck s.rxq.length (s.h1 ++ s.h2) = true) :
    recvValidate s =
      { recvMeasure s with
        plen := (s.h1 ++ s.h2).setWidth 17 - 1#17
        rxPresent := true
        idx := 0#17
        seq := if (s.h1 ++ s.h2).setWidth 17 - 1#17 = 0#17 then .rxSum else .rxPay } := by
  rcases recvValidate_cases s with ⟨hfail, -⟩ | ⟨-, hrun⟩
  · cases hfail.symm.trans h
  · exact hrun

theorem recvValidate_failed {s : State}
    (h : lengthOk s.params.availCheck s.rxq.length (s.h1 ++ s.h2) = false) :
    recvValidate s = finish false .lengthMismatch { recvMeasure s with rxValid := false, errFrame := false } := by
  rcases recvValidate_cases s with ⟨-, hrun⟩ | ⟨hpass, -⟩
  · exact hrun
  · cases h.symm.trans hpass

/-- LEN as a number of 16 bits (R89). -/
theorem lenOfHeader_eq_ofNat (h1 h2 : Byte) : (h1 ++ h2 : Half) = BitVec.ofNat 16 (h1.toNat * 256 + h2.toNat) := by
  rw [← lenOfHeader_toNat, BitVec.ofNat_toNat, BitVec.setWidth_eq]

theorem rxLenWord_eq_ofNat (len : Half) : rxLenWord len = BitVec.ofNat 32 ((len.toNat + 65535) % 65536) := by
  rw [← rxLenWord_toNat, BitVec.ofNat_toNat, BitVec.setWidth_eq]

/-- The RX_INFO that RX_VALIDATE writes has RXSUM 0 (R163). -/
theorem rxInfoWord_zero_eq_ofNat (len : Half) (hdr0 : Byte) :
    rxInfoWord len 0#8 hdr0 = BitVec.ofNat 32 (len.toNat * 65536 + hdr0.toNat) := by
  apply BitVec.eq_of_toNat_eq
  have hlen := len.isLt
  have hhdr := hdr0.isLt
  rw [rxInfoWord_toNat, BitVec.toNat_ofNat, BitVec.toNat_ofNat]
  omega

/-- PLEN is LEN - 1, which does not wrap for a LEN that passes the check (R168). -/
theorem plenOfLen_toNat {len : Half} (h : 1 ≤ len.toNat) : (len.setWidth 17 - 1#17).toNat = len.toNat - 1 := by
  have hlt := len.isLt
  rw [BitVec.toNat_sub, BitVec.toNat_setWidth, BitVec.toNat_ofNat]
  omega

theorem plenOfLen_eq_ofNat {len : Half} (h : 1 ≤ len.toNat) :
    len.setWidth 17 - 1#17 = BitVec.ofNat 17 (len.toNat - 1) := by
  rw [← plenOfLen_toNat h, BitVec.ofNat_toNat, BitVec.setWidth_eq]

theorem plenOfLen_eq_zero_iff {len : Half} (h : 1 ≤ len.toNat) : len.setWidth 17 - 1#17 = 0#17 ↔ len.toNat = 1 := by
  rw [← BitVec.toNat_inj, plenOfLen_toNat h, BitVec.toNat_ofNat]
  omega

/-- What RX_VALIDATE writes before its check, by the number that LEN is (R163 to R165). -/
theorem recvMeasure_eq (s : State) :
    recvMeasure s =
      { s with
        lenf := BitVec.ofNat 16 (s.h1.toNat * 256 + s.h2.toNat)
        rxLen := BitVec.ofNat 32 ((s.h1.toNat * 256 + s.h2.toNat + 65535) % 65536)
        rxInfo := BitVec.ofNat 32 ((s.h1.toNat * 256 + s.h2.toNat) * 65536 + s.h0.toNat)
        rxPresent := false
        avs := s.rxq.length } := by
  rw [recvMeasure, rxLenWord_eq_ofNat, rxInfoWord_zero_eq_ofNat, lenOfHeader_toNat, lenOfHeader_eq_ofNat, rxAvail]

/-- Settles O21: R166's check on the number LEN is `lengthOk`, and each outcome of it has its lemma; LEN - 1 wraps only
where LEN is 0, which does not pass. -/
theorem recvValidatesTheLength : Obligations.RecvValidatesTheLength := by
  intro s hs len avs passes
  have hlen : (s.h1 ++ s.h2 : Half).toNat = len := lenOfHeader_toNat s.h1 s.h2
  have hcheck : lengthOk s.params.availCheck avs (s.h1 ++ s.h2) = true ↔ passes := by
    have h := lengthOk_iff (mode := s.params.availCheck) (avs := avs) (len := s.h1 ++ s.h2)
    rw [hlen] at h
    exact h
  rw [exec_recv_rxValidate hs]
  refine ⟨fun hpass => ?_, fun hfail => ?_⟩
  · have hpos : 1 ≤ (s.h1 ++ s.h2 : Half).toNat := hlen ▸ hpass.1
    have hsub : (len + 65535) % 65536 = len - 1 := by omega
    rw [recvValidate_passed (hcheck.2 hpass), recvMeasure_eq, hsub]
    simp only [plenOfLen_eq_zero_iff hpos, hlen]
    rw [plenOfLen_eq_ofNat hpos, hlen]
  · rw [recvValidate_failed (Bool.eq_false_iff.2 (mt hcheck.1 hfail)), recvMeasure_eq]
    rfl

/-! ## RX_PAY -/

/-- An empty RXQ blocks the payload (R168, R227). -/
theorem recvPayload_waiting {s : State} (h : s.rxq = []) : recvPayload s = s := by
  rw [recvPayload, h]

/-- The head of RXQ goes to RXP[IDX] (R168). -/
theorem recvPayload_byte {s : State} {b : Byte} {q : List Byte} (h : s.rxq = b :: q) :
    recvPayload s =
      { s with
        rxq := q
        rxp := Memory.write s.rxp s.idx.toNat b
        idx := s.idx + 1#17
        seq := if s.idx + 1#17 = s.plen then .rxSum else .rxPay } := by
  rw [recvPayload, h]

/-- Settles O22: a passed check allocates PLEN = LEN - 1 bytes, and a step of RX_PAY is one buffer write at IDX. -/
theorem recvAllocatesAndStoresThePayload : Obligations.RecvAllocatesAndStoresThePayload := by
  refine ⟨fun s hs hpass => ?_, fun s b q hs hq => ?_, fun s hs hq => ?_⟩
  · have hpos : 1 ≤ (s.h1 ++ s.h2 : Half).toNat := (lengthOk_iff.1 hpass).1
    refine ⟨recvValidate s, exec_recv_rxValidate hs, ?_⟩
    rw [recvValidate_passed hpass]
    refine ⟨?_, rfl, rfl, rfl, rfl, rfl⟩
    rw [plenOfLen_toNat hpos, Nat.sub_add_cancel hpos, lenOfHeader_toNat]
  · rw [exec_recv_rxPay hs, recvPayload_byte hq]
    exact ⟨_, rfl, Memory.read_write_same _ _ _, fun a ha => Memory.read_write_other _ _ ha⟩
  · rw [exec_recv_rxPay hs, recvPayload_waiting hq]

/-! ## RX_SUM -/

/-- An empty RXQ blocks the checksum byte (R169, R227). -/
theorem recvSum_waiting {s : State} (h : s.rxq = []) : recvSum s = s := by
  rw [recvSum, h]

/-- The head of RXQ goes to RXS and to RX_INFO.RXSUM (R169). -/
theorem recvSum_byte {s : State} {b : Byte} {q : List Byte} (h : s.rxq = b :: q) :
    recvSum s = { s with rxq := q, rxs := b, rxInfo := setRxSum s.rxInfo b, seq := .rxVerify } := by
  rw [recvSum, h]

/-- The fields of RX_INFO after a write of RXSUM: RXSUM, HDR0 and LENF (R34). -/
theorem setRxSum_fields (info : Word) (b : Byte) :
    (setRxSum info b).extractLsb' 8 8 = b ∧
      (setRxSum info b).extractLsb' 0 8 = info.extractLsb' 0 8 ∧
      (setRxSum info b).extractLsb' 16 16 = info.extractLsb' 16 16 := by
  refine ⟨?_, ?_, ?_⟩
  all_goals
    apply extractLsb'_eq_of_toNat
    simp only [setRxSum_toNat, BitVec.extractLsb'_toNat, Nat.shiftRight_eq_div_pow]
    omega

/-- Settles O23: the step is `recvSum_byte`, whose RX_INFO is `setRxSum`. -/
theorem recvReadsTheChecksumByte : Obligations.RecvReadsTheChecksumByte := by
  refine ⟨fun s b q hs hq => ⟨setRxSum s.rxInfo b, ?_, setRxSum_fields s.rxInfo b⟩, fun s hs hq => ?_⟩
  · rw [exec_recv_rxSum hs, recvSum_byte hq]
  · rw [exec_recv_rxSum hs, recvSum_waiting hq]

/-! ## RX_VERIFY -/

/-- With the payload in RXP and LENF its length plus 1, the decoder computes the checksum of R110 (R170). -/
theorem accumulate_rxpBytes {s : State} {p : List Byte} (hplen : s.plen.toNat = p.length)
    (hlenf : s.lenf.toNat = p.length + 1) (hholds : s.rxp.holds p) :
    accumulate s.lenf (rxpBytes s.rxp 0 s.plen.toNat) = checksum p := by
  have hbytes : rxpBytes s.rxp 0 p.length = p := rxpBytes_eq fun i hi => by rw [Nat.zero_add, hholds i hi]
  rw [hplen, hbytes, accumulate_eq_checksum hlenf]

/-- Settles O24: `recvVerify_cases` compares the sum it computes with RXS, and `accumulate_rxpBytes` says which sum
that is. -/
theorem recvVerifiesTheChecksum : Obligations.RecvVerifiesTheChecksum := by
  intro s p hs hplen hlenf hholds
  rw [exec_recv_rxVerify hs]
  obtain ⟨sum, hsum, hrun⟩ := recvVerify_cases s
  obtain rfl : sum = checksum p := hsum.trans (accumulate_rxpBytes hplen hlenf hholds)
  refine ⟨fun hmatch => ?_, fun hmismatch => ?_⟩
  · obtain ⟨-, hrun⟩ := hrun.resolve_right fun ⟨hne, _⟩ => hne hmatch
    rw [hrun]
    rfl
  · obtain ⟨-, hrun⟩ := hrun.resolve_left fun ⟨heq, _⟩ => hmismatch heq
    rw [hrun]
    rfl

/-! ## RX_ERRF -/

/-- No step until the transport has replied (R174, R227). -/
theorem recvErrf_waiting {s : State} {b : List Byte} (h : s.pending = some b) : recvErrf s = s := by
  rw [recvErrf, State.replied, h]
  rfl

/-- The one step after the reply ends the RECV, whatever the reply is (R174). -/
theorem recvErrf_replied {s : State} (h : s.pending = none) : recvErrf s = { s with seq := .idle } := by
  rw [recvErrf, State.replied, h]
  rfl

/-- Settles O25: the wait and the ending step are `recvErrf`'s two cases, and either reply between them is `answer`. -/
theorem recvEndsOnAnyReply : Obligations.RecvEndsOnAnyReply := by
  intro s hs
  refine ⟨fun b hb => ?_, fun k rest hp hm => ?_, fun hp => ?_⟩
  · rw [exec_recv_rxErrf hs, recvErrf_waiting hb]
  · rcases hm with hok | ⟨herr, hle⟩
    · exact ⟨_, step_replyOk hp hok, answer_txs _ _ _ _, hs, answer_frame _ _ _ _⟩
    · exact ⟨_, step_replyErr hp hle herr, answer_txs _ _ _ _, hs, answer_frame _ _ _ _⟩
  · rw [exec_recv_rxErrf hs, recvErrf_replied hp]

end Sys2Proof.Machine
end

section
/-! PROOFS. The block's waits: the states in which its turn changes nothing, and in every other the progress it makes. -/

namespace Sys2Proof.Machine

/-- The block waits: in IDLE, without the reply it needs, or without the byte of RXQ it needs (R227). -/
def State.waits (s : State) : Prop :=
  s.seq = .idle ∨ ((s.seq = .txWrite ∨ s.seq = .rxErrf) ∧ s.pending ≠ none) ∨
    ((s.seq = .rxHdr ∨ s.seq = .rxPay ∨ s.seq = .rxSum) ∧ s.rxq = [])

/-- A wait leaves all state unchanged (R227). -/
theorem advance_of_waits {s : State} (h : s.waits) : advance s = s := by
  rcases h with hs | ⟨hs, hp⟩ | ⟨hs, hq⟩
  · rw [advance, hs]
  · obtain ⟨b, hb⟩ := Option.ne_none_iff_exists'.1 hp
    rcases hs with hs | hs
    · rw [advance, hs]
      exact sendReply_waiting hb
    · rw [advance, hs]
      exact recvErrf_waiting hb
  · rcases hs with hs | hs | hs
    · rw [advance, hs]
      exact recvHeader_waiting hq
    · rw [advance, hs]
      exact recvPayload_waiting hq
    · rw [advance, hs]
      exact recvSum_waiting hq

/-- From s to t the block has moved on: to another state of the sequencer, past a byte of RXQ, or to a fault. -/
def Progress (s t : State) : Prop :=
  t.seq ≠ s.seq ∨ t.rxq = s.rxq.tail ∧ t.rxq ≠ s.rxq ∨ t.blockStopped = true

theorem Progress.of_seq {s t : State} {q : Seq} (r : Seq) (hs : s.seq = q) (ht : t.seq = r) (hne : r ≠ q) :
    Progress s t :=
  .inl (by rwa [hs, ht])

theorem Progress.of_byte {s t : State} {b : Byte} {q : List Byte} (hs : s.rxq = b :: q) (ht : t.rxq = q) :
    Progress s t :=
  .inr (.inl (by
    rw [hs, ht]
    exact ⟨rfl, (List.cons_ne_self b q).symm⟩))

theorem sendAssemble_progress {s : State} (hs : s.seq = .txAsm) : Progress s (sendAssemble s) := by
  obtain ⟨-, h⟩ | ⟨-, -, h⟩ | ⟨p, -, -, -, h⟩ := sendAssemble_cases s
  all_goals rw [h]
  · exact .of_seq .idle hs rfl (by decide)
  · exact .inr (.inr rfl)
  · exact .of_seq .txWrite hs rfl (by decide)

theorem csumRun_progress {s : State} (hs : s.seq = .csRun) : Progress s (csumRun s) := by
  obtain ⟨-, h⟩ | ⟨-, -, h⟩ | ⟨p, -, -, h⟩ := csumRun_cases s
  all_goals rw [h]
  · exact .of_seq .idle hs rfl (by decide)
  · exact .inr (.inr rfl)
  · exact .of_seq .idle hs rfl (by decide)

theorem recvValidate_progress {s : State} (hs : s.seq = .rxValidate) : Progress s (recvValidate s) := by
  obtain ⟨-, h⟩ | ⟨-, h⟩ := recvValidate_cases s
  all_goals rw [h]
  · exact .of_seq .idle hs rfl (by decide)
  · refine .of_seq _ hs rfl ?_
    change ite _ Seq.rxSum Seq.rxPay ≠ .rxValidate
    split <;> decide

theorem recvVerify_progress {s : State} (hs : s.seq = .rxVerify) : Progress s (recvVerify s) := by
  obtain ⟨sum, -, ⟨-, h⟩ | ⟨-, h⟩⟩ := recvVerify_cases s
  all_goals rw [h]
  · exact .of_seq .idle hs rfl (by decide)
  · exact .of_seq .rxErrf hs rfl (by decide)

theorem sendReply_progress {s : State} (hs : s.seq = .txWrite) (hp : s.pending = none) :
    Progress s (sendReply s) := by
  rw [sendReply_replied hp]
  exact .of_seq .idle hs rfl (by decide)

theorem recvErrf_progress {s : State} (hs : s.seq = .rxErrf) (hp : s.pending = none) : Progress s (recvErrf s) := by
  rw [recvErrf_replied hp]
  exact .of_seq .idle hs rfl (by decide)

theorem recvHeader_progress {s : State} (hq : s.rxq ≠ []) : Progress s (recvHeader s) := by
  obtain ⟨b, q, hq⟩ := List.exists_cons_of_ne_nil hq
  rw [recvHeader_byte hq]
  exact .of_byte hq rfl

theorem recvPayload_progress {s : State} (hq : s.rxq ≠ []) : Progress s (recvPayload s) := by
  obtain ⟨b, q, hq⟩ := List.exists_cons_of_ne_nil hq
  rw [recvPayload_byte hq]
  exact .of_byte hq rfl

theorem recvSum_progress {s : State} (hq : s.rxq ≠ []) : Progress s (recvSum s) := by
  obtain ⟨b, q, hq⟩ := List.exists_cons_of_ne_nil hq
  rw [recvSum_byte hq]
  exact .of_byte hq rfl

/-- Where it does not wait, the block moves on. -/
theorem advance_progress {s : State} (h : ¬ s.waits) : Progress s (advance s) := by
  obtain ⟨hidle, hreply, hbyte⟩ : s.seq ≠ .idle ∧ ¬ ((s.seq = .txWrite ∨ s.seq = .rxErrf) ∧ s.pending ≠ none) ∧
      ¬ ((s.seq = .rxHdr ∨ s.seq = .rxPay ∨ s.seq = .rxSum) ∧ s.rxq = []) := by
    simpa only [State.waits, not_or] using h
  cases hs : s.seq with
  | idle => exact absurd hs hidle
  | txAsm =>
    rw [advance, hs]
    exact sendAssemble_progress hs
  | txWrite =>
    rw [advance, hs]
    exact sendReply_progress hs (not_not.1 fun hp => hreply ⟨.inl hs, hp⟩)
  | csRun =>
    rw [advance, hs]
    exact csumRun_progress hs
  | rxHdr =>
    rw [advance, hs]
    exact recvHeader_progress fun hq => hbyte ⟨.inl hs, hq⟩
  | rxValidate =>
    rw [advance, hs]
    exact recvValidate_progress hs
  | rxPay =>
    rw [advance, hs]
    exact recvPayload_progress fun hq => hbyte ⟨.inr (.inl hs), hq⟩
  | rxSum =>
    rw [advance, hs]
    exact recvSum_progress fun hq => hbyte ⟨.inr (.inr hs), hq⟩
  | rxVerify =>
    rw [advance, hs]
    exact recvVerify_progress hs
  | rxErrf =>
    rw [advance, hs]
    exact recvErrf_progress hs (not_not.1 fun hp => hreply ⟨.inr hs, hp⟩)

/-- Settles O20: the block's own turn is `advance`, which keeps a state that waits and moves on from any other. -/
theorem blockWaitsExactlyWhereTheRuleSays : Obligations.BlockWaitsExactlyWhereTheRuleSays := by
  intro s hb hm waits
  rw [step_alone hb hm]
  refine ⟨fun hw => ?_, fun hw => ⟨advance s, rfl, advance_progress hw⟩⟩
  rw [advance_of_waits hw]

end Sys2Proof.Machine
end

section
/-! PROOFS. Logging: no step writes a parameter, and every step commutes with a change of LOG_ENABLE. -/

namespace Sys2Proof.Machine

/-! ## No step writes a parameter -/

theorem acceptOf_params (i : Instr) (s : State) : (acceptOf i s).params = s.params := by
  cases i <;> rfl

/-- The block's turn writes no parameter, whatever the state of the sequencer. -/
theorem advance_params (s : State) : (advance s).params = s.params := by
  cases hs : s.seq with
  | idle => rw [advance, hs]
  | txAsm =>
    rw [advance, hs]
    obtain ⟨-, h⟩ | ⟨-, -, h⟩ | ⟨p, -, -, -, h⟩ := sendAssemble_cases s
    all_goals exact (congrArg State.params h :)
  | txWrite =>
    rw [advance, hs]
    obtain ⟨-, h⟩ | ⟨ok, -, -, h⟩ := sendReply_cases s
    all_goals exact (congrArg State.params h :)
  | csRun =>
    rw [advance, hs]
    obtain ⟨-, h⟩ | ⟨-, -, h⟩ | ⟨p, -, -, h⟩ := csumRun_cases s
    all_goals exact (congrArg State.params h :)
  | rxHdr =>
    rw [advance, hs]
    obtain ⟨-, h⟩ | ⟨b, q, -, h⟩ := recvHeader_cases s
    all_goals exact (congrArg State.params h :)
  | rxValidate =>
    rw [advance, hs]
    obtain ⟨-, h⟩ | ⟨-, h⟩ := recvValidate_cases s
    all_goals exact (congrArg State.params h :)
  | rxPay =>
    rw [advance, hs]
    obtain ⟨-, h⟩ | ⟨b, q, -, h⟩ := recvPayload_cases s
    all_goals exact (congrArg State.params h :)
  | rxSum =>
    rw [advance, hs]
    obtain ⟨-, h⟩ | ⟨b, q, -, h⟩ := recvSum_cases s
    all_goals exact (congrArg State.params h :)
  | rxVerify =>
    rw [advance, hs]
    obtain ⟨sum, -, ⟨-, h⟩ | ⟨-, h⟩⟩ := recvVerify_cases s
    all_goals exact (congrArg State.params h :)
  | rxErrf =>
    rw [advance, hs]
    obtain ⟨-, h⟩ | ⟨-, h⟩ := recvErrf_cases s
    all_goals exact (congrArg State.params h :)

theorem Effect.params_eq {s t : State} {m : Option Move} (e : Effect s m t) : t.params = s.params := by
  cases e with
  | accept v i => exact acceptOf_params i s
  | advance => exact advance_params s
  | _ => rfl

/-! ## A change of LOG_ENABLE -/

/-- The machine with LOG_ENABLE set to b. -/
def State.withLog (b : Bool) (s : State) : State := { s with params := { s.params with logEnable := b } }

/-- What a step answers, with LOG_ENABLE set to b in its next state. -/
def answerWithLog (b : Bool) : Result → Result
  | .next t => .next (t.withLog b)
  | .fault f => .fault f
  | .refused r => .refused r

/-- A conditional commutes with f where its branches do. -/
theorem ite_eq_apply_ite {α β : Type} {f : α → β} {c : Prop} [Decidable c] {x y : α} {x' y' : β} (hx : x' = f x)
    (hy : y' = f y) : (if c then x' else y') = f (if c then x else y) := by
  rw [hx, hy, apply_ite f]

section
variable (b : Bool) (s : State)

/-! ### What a change of LOG_ENABLE leaves -/

@[simp] theorem withLog_seq : (s.withLog b).seq = s.seq := rfl
@[simp] theorem withLog_txp : (s.withLog b).txp = s.txp := rfl
@[simp] theorem withLog_pending : (s.withLog b).pending = s.pending := rfl
@[simp] theorem withLog_abandoned : (s.withLog b).abandoned = s.abandoned := rfl
@[simp] theorem operandPayload_withLog : operandPayload (s.withLog b) = operandPayload s := rfl

/-- BASE does not depend on LOG_ENABLE, so every address keeps its offset. -/
@[simp] theorem windowOffset_withLog (addr : Nat) :
    windowOffset (s.withLog b).params addr = windowOffset s.params addr := rfl

/-! ### The block's turn -/

theorem sendAssemble_withLog : sendAssemble (s.withLog b) = (sendAssemble s).withLog b := by
  refine ite_eq_apply_ite rfl ?_
  rw [operandPayload_withLog]
  cases operandPayload s <;> rfl

theorem sendReply_withLog : sendReply (s.withLog b) = (sendReply s).withLog b :=
  ite_eq_apply_ite rfl rfl

theorem csumRun_withLog : csumRun (s.withLog b) = (csumRun s).withLog b := by
  refine ite_eq_apply_ite rfl ?_
  rw [operandPayload_withLog]
  cases operandPayload s <;> rfl

theorem recvHeader_withLog : recvHeader (s.withLog b) = (recvHeader s).withLog b := by
  obtain ⟨hq, h⟩ | ⟨c, q, hq, h⟩ := recvHeader_cases s
  · rw [h]
    exact recvHeader_waiting hq
  · rw [h]
    exact recvHeader_byte (s := s.withLog b) hq

theorem recvValidate_withLog : recvValidate (s.withLog b) = (recvValidate s).withLog b :=
  ite_eq_apply_ite rfl rfl

theorem recvPayload_withLog : recvPayload (s.withLog b) = (recvPayload s).withLog b := by
  obtain ⟨hq, h⟩ | ⟨c, q, hq, h⟩ := recvPayload_cases s
  · rw [h]
    exact recvPayload_waiting hq
  · rw [h]
    exact recvPayload_byte (s := s.withLog b) hq

theorem recvSum_withLog : recvSum (s.withLog b) = (recvSum s).withLog b := by
  obtain ⟨hq, h⟩ | ⟨c, q, hq, h⟩ := recvSum_cases s
  · rw [h]
    exact recvSum_waiting hq
  · rw [h]
    exact recvSum_byte (s := s.withLog b) hq

theorem recvVerify_withLog : recvVerify (s.withLog b) = (recvVerify s).withLog b :=
  ite_eq_apply_ite rfl rfl

theorem recvErrf_withLog : recvErrf (s.withLog b) = (recvErrf s).withLog b :=
  ite_eq_apply_ite rfl rfl

theorem advance_withLog : advance (s.withLog b) = (advance s).withLog b := by
  rw [advance, advance, withLog_seq]
  cases s.seq with
  | idle => rfl
  | txAsm => exact sendAssemble_withLog b s
  | txWrite => exact sendReply_withLog b s
  | csRun => exact csumRun_withLog b s
  | rxHdr => exact recvHeader_withLog b s
  | rxValidate => exact recvValidate_withLog b s
  | rxPay => exact recvPayload_withLog b s
  | rxSum => exact recvSum_withLog b s
  | rxVerify => exact recvVerify_withLog b s
  | rxErrf => exact recvErrf_withLog b s

/-- The turn of a block that has faulted does nothing (R217); that of any other block is `advance`. -/
theorem blockTurn_eq : blockTurn s = if s.blockStopped then .next s else .next (advance s) := by
  cases hb : s.blockStopped with
  | true => rw [blockTurn, hb]; rfl
  | false => exact blockTurn_advance hb

theorem blockTurn_withLog : blockTurn (s.withLog b) = answerWithLog b (blockTurn s) := by
  rw [blockTurn_eq, blockTurn_eq, advance_withLog]
  exact ite_eq_apply_ite rfl rfl

/-! ### The host's accesses -/

theorem acceptOf_withLog (i : Instr) : acceptOf i (s.withLog b) = (acceptOf i s).withLog b := by
  cases i <;> rfl

/-- A block that has faulted takes no command word (R217). -/
theorem writeCmd_stopped {s : State} (hs : s.seq = .idle) (hb : s.blockStopped = true) (w : Word) :
    writeCmd w s = .next s := by
  rw [writeCmd, busy_eq_false.2 hs, hb]
  rfl

theorem writeCmd_withLog (w : Word) : writeCmd w (s.withLog b) = answerWithLog b (writeCmd w s) := by
  by_cases hs : s.seq = .idle
  · cases hb : s.blockStopped with
    | true =>
      rw [writeCmd_stopped hs hb]
      exact writeCmd_stopped (s := s.withLog b) hs hb w
    | false =>
      cases hd : decode w with
      | command i =>
        rw [writeCmd_command hs hb hd, writeCmd_command (s := s.withLog b) hs hb hd, acceptOf_withLog]
        rfl
      | illegal why =>
        rw [writeCmd_illegal hs hb hd]
        exact writeCmd_illegal (s := s.withLog b) hs hb hd
  · rw [writeCmd_busy hs]
    exact writeCmd_busy (s := s.withLog b) hs w

theorem writePlace_withLog (p : Place) (n : Nat) (v : Word) :
    writePlace p n v (s.withLog b) = answerWithLog b (writePlace p n v s) := by
  cases p with
  | reg r =>
    cases r with
    | cmd => exact ite_eq_apply_ite (writeCmd_withLog b s v) rfl
    | status | rxLen | rxInfo | lastSum | txWritten => rfl
  | txp i => exact ite_eq_apply_ite (ite_eq_apply_ite rfl rfl) rfl
  | rxp | unmapped => rfl

theorem readTxp_withLog (i : Nat) : readTxp i (s.withLog b) = answerWithLog b (readTxp i s) := by
  refine ite_eq_apply_ite rfl ?_
  rw [withLog_txp]
  cases Memory.read s.txp i <;> rfl

theorem readPlace_withLog (p : Place) (n : Nat) :
    readPlace p n (s.withLog b) = answerWithLog b (readPlace p n s) := by
  cases p with
  | reg r =>
    cases r with
    | cmd => rfl
    | status | rxLen | rxInfo | txWritten => exact ite_eq_apply_ite (ite_eq_apply_ite rfl rfl) rfl
    | lastSum => exact ite_eq_apply_ite (ite_eq_apply_ite rfl (ite_eq_apply_ite rfl rfl)) rfl
  | txp i => exact ite_eq_apply_ite (readTxp_withLog b s i) rfl
  | rxp i => exact ite_eq_apply_ite (ite_eq_apply_ite rfl (ite_eq_apply_ite rfl rfl)) rfl
  | unmapped => rfl

theorem hostWrite_withLog (addr n : Nat) (v : Word) :
    hostWrite addr n v (s.withLog b) = answerWithLog b (hostWrite addr n v s) := by
  rw [hostWrite, hostWrite, windowOffset_withLog]
  cases windowOffset s.params addr with
  | none => rfl
  | some off => exact writePlace_withLog b s (placeOf off) n v

theorem hostRead_withLog (addr n : Nat) :
    hostRead addr n (s.withLog b) = answerWithLog b (hostRead addr n s) := by
  rw [hostRead, hostRead, windowOffset_withLog]
  cases windowOffset s.params addr with
  | none => rfl
  | some off => exact readPlace_withLog b s (placeOf off) n

/-! ### The moves -/

theorem hostDrop_withLog (n : Nat) : hostDrop n (s.withLog b) = answerWithLog b (hostDrop n s) :=
  ite_eq_apply_ite rfl rfl

theorem replyOk_withLog (k : Nat) : replyOk k (s.withLog b) = answerWithLog b (replyOk k s) := by
  rw [replyOk, replyOk, withLog_pending]
  cases s.pending <;> rfl

theorem replyErr_withLog (p : Nat) : replyErr p (s.withLog b) = answerWithLog b (replyErr p s) := by
  rw [replyErr, replyErr, withLog_pending]
  cases s.pending with
  | none => rfl
  | some request => exact ite_eq_apply_ite rfl rfl

theorem settleAbandoned_withLog (p : Nat) :
    settleAbandoned p (s.withLog b) = answerWithLog b (settleAbandoned p s) := by
  rw [settleAbandoned, settleAbandoned, withLog_abandoned]
  cases s.abandoned with
  | nil => rfl
  | cons request rest => exact ite_eq_apply_ite rfl rfl

theorem takeMove_withLog (m : Move) : takeMove m (s.withLog b) = answerWithLog b (takeMove m s) := by
  cases m with
  | hostWrite addr n v => exact ite_eq_apply_ite rfl (hostWrite_withLog b s addr n v)
  | hostRead addr n => exact ite_eq_apply_ite rfl (hostRead_withLog b s addr n)
  | hostDrop n => exact ite_eq_apply_ite rfl (hostDrop_withLog b s n)
  | peerAppend | reset => rfl
  | replyOk k => exact replyOk_withLog b s k
  | replyErr p => exact replyErr_withLog b s p
  | settleAbandoned p => exact settleAbandoned_withLog b s p
  | block => exact blockTurn_withLog b s

/-- The step commutes with a change of LOG_ENABLE. -/
theorem step_withLog : step (s.withLog b) = answerWithLog b (step s) := by
  cases hm : s.moves with
  | nil =>
    rw [step_nil hm, step_nil (s := s.withLog b) hm]
    exact blockTurn_withLog b s
  | cons m rest =>
    rw [step_cons hm, step_cons (s := s.withLog b) hm]
    exact takeMove_withLog b { s with moves := rest } m

end

/-- Settles O48: every effect of a step keeps the parameters, and a change of LOG_ENABLE before the step is the same
change after it. -/
theorem loggingChangesNothing : Obligations.LoggingChangesNothing :=
  ⟨fun _ _ h => (step_effect h).params_eq, fun s b => step_withLog b s⟩

end Sys2Proof.Machine
end

section
/-! PROOFS. The reset input: the reset values of the block, what it leaves as it was, and the settlement of a request that it
abandoned. -/

namespace Sys2Proof.Machine

/-- The reset step is not withheld from any state: no guard stands before it (R240). -/
theorem step_reset {s : State} {rest : List Move} (hm : s.moves = .reset :: rest) :
    step s = .next (resetBlock { s with moves := rest }) :=
  step_cons hm

/-! ## The registers after the reset input -/

@[simp] theorem resetBlock_seq (s : State) : (resetBlock s).seq = .idle := rfl
@[simp] theorem resetBlock_rxLen (s : State) : (resetBlock s).rxLen = 0#32 := rfl
@[simp] theorem resetBlock_rxInfo (s : State) : (resetBlock s).rxInfo = 0#32 := rfl
@[simp] theorem resetBlock_lastSum (s : State) : (resetBlock s).lastSum = 0#32 := rfl
@[simp] theorem resetBlock_txWritten (s : State) : (resetBlock s).txWritten = 0#32 := rfl
@[simp] theorem resetBlock_sumValid (s : State) : (resetBlock s).sumValid = false := rfl
@[simp] theorem resetBlock_rxPresent (s : State) : (resetBlock s).rxPresent = false := rfl
@[simp] theorem resetBlock_txp (s : State) : (resetBlock s).txp = [] := rfl
@[simp] theorem resetBlock_pending (s : State) : (resetBlock s).pending = none := rfl

/-- STATUS is made of fields that take their reset values, so it is the word of `State.reset`, whatever s was. -/
@[simp] theorem statusWord_resetBlock (s : State) : statusWord (resetBlock s) = 0#32 := by
  have hreset : statusWord (resetBlock s) = statusWord State.reset := rfl
  rw [hreset]
  decide

/-! ## What the reset input keeps -/

@[simp] theorem resetBlock_params (s : State) : (resetBlock s).params = s.params := rfl
@[simp] theorem resetBlock_rxq (s : State) : (resetBlock s).rxq = s.rxq := rfl
@[simp] theorem resetBlock_txs (s : State) : (resetBlock s).txs = s.txs := rfl
@[simp] theorem resetBlock_faults (s : State) : (resetBlock s).faults = s.faults := rfl
@[simp] theorem resetBlock_moves (s : State) : (resetBlock s).moves = s.moves := rfl

/-- The request of the aborted command goes behind the ones abandoned before it (R241). -/
@[simp] theorem resetBlock_abandoned (s : State) :
    (resetBlock s).abandoned = s.abandoned ++ s.pending.toList := rfl

/-! ## The settlement of an abandoned request -/

/-- A settlement that delivers no more than the oldest abandoned request holds is one of the transport's moves (R241). -/
theorem settleAbandoned_of_le {s : State} {b : List Byte} {older : List (List Byte)} {p : Nat}
    (ha : s.abandoned = b :: older) (hp : p ≤ b.length) :
    settleAbandoned p s = .next { s with txs := s.txs ++ b.take p, abandoned := older } := by
  simp only [settleAbandoned, ha]
  exact if_neg (Nat.not_lt.2 hp)

theorem step_settleAbandoned {s : State} {b : List Byte} {older : List (List Byte)} {p : Nat} {rest : List Move}
    (ha : s.abandoned = b :: older) (hp : p ≤ b.length) (hm : s.moves = .settleAbandoned p :: rest) :
    step s = .next { s with moves := rest, txs := s.txs ++ b.take p, abandoned := older } :=
  (step_cons hm).trans (settleAbandoned_of_le (s := { s with moves := rest }) ha hp)

/-- Settles O43: the reset input answers `resetBlock` in any state, whose fields the lemmas above give, and the settlement
of a request it abandoned is `step_settleAbandoned`. -/
theorem resetInput : Obligations.ResetInput := by
  refine ⟨fun s rest hm => ⟨_, step_reset hm, ?_⟩, fun s b older p rest ha hp hm => step_settleAbandoned ha hp hm⟩
  simp

end Sys2Proof.Machine
end

section
/-! PROOFS. The invariant of the block: what it says in each state of the sequencer, and that reset meets it and every step
keeps it. -/

namespace Sys2Proof.Machine

/-! ## What the invariant says of the latches and the request, by state -/

section
variable {s : State}

theorem sequencerOk_idle (hs : s.seq = .idle) : s.SequencerOk ↔ s.pending = none := by
  rw [State.SequencerOk, hs]

theorem sequencerOk_txAsm (hs : s.seq = .txAsm) : s.SequencerOk ↔ s.pending = none ∧ s.lastOp = .send := by
  rw [State.SequencerOk, hs]

theorem sequencerOk_txWrite (hs : s.seq = .txWrite) :
    s.SequencerOk ↔ s.lastOp = .send ∧ s.curLen.toNat ≤ Config.maxPayload ∧
      ∀ b, s.pending = some b → b.length = s.curLen.toNat + 4 := by
  rw [State.SequencerOk, hs]

theorem sequencerOk_csRun (hs : s.seq = .csRun) : s.SequencerOk ↔ s.pending = none ∧ s.lastOp = .csum := by
  rw [State.SequencerOk, hs]

theorem sequencerOk_rxHdr (hs : s.seq = .rxHdr) :
    s.SequencerOk ↔ s.pending = none ∧ s.lastOp = .recv ∧ s.idx.toNat < 3 := by
  rw [State.SequencerOk, hs]

theorem sequencerOk_rxValidate (hs : s.seq = .rxValidate) :
    s.SequencerOk ↔ s.pending = none ∧ s.lastOp = .recv := by
  rw [State.SequencerOk, hs]

theorem sequencerOk_rxPay (hs : s.seq = .rxPay) :
    s.SequencerOk ↔ s.pending = none ∧ s.lastOp = .recv ∧ s.idx.toNat < s.plen.toNat ∧ s.Receiving s.idx.toNat := by
  rw [State.SequencerOk, hs]

theorem sequencerOk_rxSum (hs : s.seq = .rxSum) :
    s.SequencerOk ↔ s.pending = none ∧ s.lastOp = .recv ∧ s.Receiving s.plen.toNat := by
  rw [State.SequencerOk, hs]

theorem sequencerOk_rxVerify (hs : s.seq = .rxVerify) :
    s.SequencerOk ↔ s.pending = none ∧ s.lastOp = .recv ∧ s.Receiving s.plen.toNat := by
  rw [State.SequencerOk, hs]

theorem sequencerOk_rxErrf (hs : s.seq = .rxErrf) :
    s.SequencerOk ↔ s.lastOp = .recv ∧ s.rxValid = false ∧ s.err = .checksumMismatch ∧ s.errFrame = true ∧
      ∀ b, s.pending = some b → b = Config.errorFrame := by
  rw [State.SequencerOk, hs]

/-! ## STATUS and the frame, in a state a command is in and in one it ends in -/

/-- The STATUS fields while a command is in progress: RESULT is 0, as the accept step left it. -/
theorem statusOk_of_busy (q : Seq) (hs : s.seq = q) (hq : q ≠ .idle)
    (hop : s.lastOp = .send ∨ s.lastOp = .recv ∨ s.lastOp = .csum) (hresult : s.result = false)
    (hframe : s.rxValid = true → s.rxPresent = true) : s.StatusOk := by
  subst hs
  refine ⟨fun _ => hresult, fun h => ?_, fun h => ?_, hframe, fun _ => hresult, fun h => absurd h hq⟩
  all_goals simp [h] at hop

/-- The STATUS fields once a command has ended: an error goes with RESULT 0, and a RECV's RESULT is RX_VALID. -/
theorem statusOk_of_ended (hop : s.lastOp = .send ∨ s.lastOp = .recv ∨ s.lastOp = .csum) (hs : s.seq = .idle)
    (hresult : s.err ≠ .none → s.result = false) (hframe : s.rxValid = true → s.rxPresent = true)
    (hrecv : s.lastOp = .recv → s.result = s.rxValid) : s.StatusOk := by
  refine ⟨hresult, fun h => ?_, fun h => ?_, hframe, fun h => absurd hs h, fun _ => hrecv⟩
  all_goals simp [h] at hop

theorem State.Inv.result_of_busy (h : s.Inv) (hs : s.seq ≠ .idle) : s.result = false := by
  obtain ⟨-, -, -, -, hbusy, -⟩ := h.status
  exact hbusy hs

theorem State.Inv.present_of_valid (h : s.Inv) : s.rxValid = true → s.rxPresent = true := by
  obtain ⟨-, -, -, hframe, -, -⟩ := h.status
  exact hframe

/-- A payload that is whole in RXP has the RX_LEN bytes a host may read. -/
theorem State.Receiving.written (h : s.Receiving s.plen.toNat) :
    ∀ i < s.rxLen.toNat, (Memory.read s.rxp i).isSome = true := by
  obtain ⟨-, hplen, hlen, -, hbytes⟩ := h
  exact fun i hi => hbytes i (by omega)

end

/-! ## The register bits that read 0 -/

theorem setWidth_byte_reserved (b : Byte) : (b.setWidth 32 : Word).extractLsb' 8 24 = 0#24 := by
  apply extractLsb'_eq_of_toNat
  have hb := b.isLt
  simp only [BitVec.toNat_setWidth, BitVec.toNat_ofNat]
  omega

theorem rxLenWord_reserved (len : Half) : (rxLenWord len).extractLsb' 16 16 = 0#16 := by
  apply extractLsb'_eq_of_toNat
  simp only [rxLenWord_toNat, BitVec.toNat_ofNat]
  omega

theorem txWritten_zero_reserved :
    (0#32).extractLsb' 17 14 = 0#14 ∧ ((0#32).extractLsb' 31 1 = 1#1 → (0#32).extractLsb' 0 17 = 0#17) := by
  decide

/-- TX_WRITTEN after a reply: a COUNT below 131072 with WERR 0, or WERR alone (R37). -/
theorem txWrittenWord_reserved (r : Reply) :
    (txWrittenWord r).extractLsb' 17 14 = 0#14 ∧
      ((txWrittenWord r).extractLsb' 31 1 = 1#1 → (txWrittenWord r).extractLsb' 0 17 = 0#17) := by
  cases r with
  | err => decide
  | ok k =>
    have hcount : (txWrittenWord (.ok k)).toNat = k % 131072 := by
      rw [txWrittenWord, BitVec.toNat_ofNat]
      omega
    have hwerr : (txWrittenWord (.ok k)).extractLsb' 31 1 = 0#1 := by
      apply extractLsb'_eq_of_toNat
      rw [hcount, BitVec.toNat_ofNat]
      omega
    refine ⟨?_, fun h => absurd (hwerr.symm.trans h) (by decide)⟩
    apply extractLsb'_eq_of_toNat
    rw [hcount, BitVec.toNat_ofNat]
    omega

/-! ## FAULTS -/

theorem addFault_ne_nil (fs : List ModelFault) (r : ModelFault) : addFault fs r ≠ [] :=
  List.ne_nil_of_mem ((mem_addFault fs r r).2 (.inl rfl))

theorem hostFault_inv {s : State} (h : s.Inv) (r : ModelFault) : (hostFault r s).Inv where
  buffers := h.buffers
  reserved := h.reserved
  sequencer := h.sequencer
  status := h.status
  frame := h.frame
  faults := by
    obtain ⟨hnodup, -, hblock⟩ := h.faults
    exact ⟨nodup_addFault hnodup r, fun _ => addFault_ne_nil s.faults r,
      fun hb => (mem_addFault s.faults r _).2 (.inr (hblock hb))⟩

theorem blockFault_inv {s : State} (h : s.Inv) : (blockFault .unwrittenTxp s).Inv where
  buffers := h.buffers
  reserved := h.reserved
  sequencer := h.sequencer
  status := h.status
  frame := h.frame
  faults := by
    obtain ⟨hnodup, -, -⟩ := h.faults
    exact ⟨nodup_addFault hnodup _, fun _ => addFault_ne_nil s.faults _,
      fun _ => (mem_addFault s.faults _ _).2 (.inl rfl)⟩

/-! ## The steps of the block -/

theorem acceptOf_inv {s : State} (h : s.Inv) (hs : s.seq = .idle) (i : Instr) : (acceptOf i s).Inv := by
  have hp : s.pending = none := (sequencerOk_idle hs).1 h.sequencer
  have hframe := h.frame (by simp [hs])
  cases i with
  | send n =>
    exact ⟨h.buffers, h.reserved, (sequencerOk_txAsm rfl).2 ⟨hp, rfl⟩,
      statusOk_of_busy .txAsm rfl (by decide) (.inl rfl) rfl h.present_of_valid, fun _ => hframe, h.faults⟩
  | recv =>
    exact ⟨h.buffers, h.reserved, (sequencerOk_rxHdr rfl).2 ⟨hp, rfl, Nat.zero_lt_succ 2⟩,
      statusOk_of_busy .rxHdr rfl (by decide) (.inr (.inl rfl)) rfl h.present_of_valid, fun _ => hframe, h.faults⟩
  | csum n =>
    exact ⟨h.buffers, h.reserved, (sequencerOk_csRun rfl).2 ⟨hp, rfl⟩,
      statusOk_of_busy .csRun rfl (by decide) (.inr (.inr rfl)) rfl h.present_of_valid, fun _ => hframe, h.faults⟩

theorem reject_inv {s : State} (h : s.Inv) (hs : s.seq = .idle) : (reject s).Inv where
  buffers := h.buffers
  reserved := h.reserved
  sequencer := (sequencerOk_idle (s := reject s) hs).2 ((sequencerOk_idle hs).1 h.sequencer)
  status := ⟨fun _ => rfl, nofun, fun _ => ⟨hs, rfl⟩, h.present_of_valid, fun hbusy => absurd hs hbusy, nofun⟩
  frame := h.frame
  faults := h.faults

theorem sendAssemble_inv {s : State} (h : s.Inv) (hs : s.seq = .txAsm) : (sendAssemble s).Inv := by
  obtain ⟨hp, hop⟩ := (sequencerOk_txAsm hs).1 h.sequencer
  have hframe := h.frame (by simp [hs])
  obtain ⟨hrxLen, hlastSum, htxWritten⟩ := h.reserved
  obtain ⟨-, hrun⟩ | ⟨-, -, hrun⟩ | ⟨p, hl, hlen, -, hrun⟩ := sendAssemble_cases s
  all_goals rw [hrun]
  · exact ⟨h.buffers, ⟨hrxLen, hlastSum, txWritten_zero_reserved⟩, (sequencerOk_idle rfl).2 hp,
      statusOk_of_ended (.inl hop) rfl (fun _ => rfl) h.present_of_valid (fun hr => nomatch hop.symm.trans hr),
      fun _ => hframe, h.faults⟩
  · exact blockFault_inv h
  · obtain ⟨htxp, hrxp, hwf, hwithin⟩ := h.buffers
    have hfits : 0 + (frameOf p).length ≤ Config.txbSize := by
      rw [frameOf_length, Config.txbSize]
      omega
    exact ⟨⟨htxp, hrxp, Memory.writeBytes_wf hwf 0 _, Memory.writeBytes_within hwithin hfits⟩,
      ⟨hrxLen, setWidth_byte_reserved _, htxWritten⟩,
      (sequencerOk_txWrite rfl).2 ⟨hop, hl, fun b hb => by cases hb; rw [frameOf_length, hlen]; rfl⟩,
      statusOk_of_busy .txWrite rfl (by decide) (.inl hop) (h.result_of_busy (by simp [hs])) h.present_of_valid,
      fun _ => hframe, h.faults⟩

theorem sendReply_inv {s : State} (h : s.Inv) (hs : s.seq = .txWrite) : (sendReply s).Inv := by
  obtain ⟨-, hrun⟩ | ⟨ok, hp, -, hrun⟩ := sendReply_cases s
  · rwa [hrun]
  · obtain ⟨hop, -, -⟩ := (sequencerOk_txWrite hs).1 h.sequencer
    obtain ⟨hrxLen, hlastSum, -⟩ := h.reserved
    rw [hrun]
    refine ⟨h.buffers, ⟨hrxLen, hlastSum, txWrittenWord_reserved s.wreply⟩, (sequencerOk_idle rfl).2 hp,
      statusOk_of_ended (.inl hop) rfl ?_ h.present_of_valid (fun hr => nomatch hop.symm.trans hr),
      fun _ => h.frame (by simp [hs]), h.faults⟩
    cases ok <;> simp

theorem csumRun_inv {s : State} (h : s.Inv) (hs : s.seq = .csRun) : (csumRun s).Inv := by
  obtain ⟨hp, hop⟩ := (sequencerOk_csRun hs).1 h.sequencer
  have hframe := h.frame (by simp [hs])
  obtain ⟨hrxLen, hlastSum, htxWritten⟩ := h.reserved
  obtain ⟨-, hrun⟩ | ⟨-, -, hrun⟩ | ⟨p, -, -, hrun⟩ := csumRun_cases s
  all_goals rw [hrun]
  · exact ⟨h.buffers, h.reserved, (sequencerOk_idle rfl).2 hp,
      statusOk_of_ended (.inr (.inr hop)) rfl (fun _ => rfl) h.present_of_valid
        (fun hr => nomatch hop.symm.trans hr),
      fun _ => hframe, h.faults⟩
  · exact blockFault_inv h
  · exact ⟨h.buffers, ⟨hrxLen, setWidth_byte_reserved _, htxWritten⟩, (sequencerOk_idle rfl).2 hp,
      statusOk_of_ended (.inr (.inr hop)) rfl (absurd rfl) h.present_of_valid
        (fun hr => nomatch hop.symm.trans hr),
      fun _ => hframe, h.faults⟩

theorem recvHeader_inv {s : State} (h : s.Inv) (hs : s.seq = .rxHdr) : (recvHeader s).Inv := by
  obtain ⟨-, hrun⟩ | ⟨b, q, -, hrun⟩ := recvHeader_cases s
  · rwa [hrun]
  · obtain ⟨hp, hop, hidx⟩ := (sequencerOk_rxHdr hs).1 h.sequencer
    have hresult := h.result_of_busy (by simp [hs])
    have hframe := h.frame (by simp [hs])
    rw [hrun]
    by_cases hlast : s.idx + 1#17 = 3#17
    · rw [if_pos hlast]
      exact ⟨h.buffers, h.reserved, (sequencerOk_rxValidate rfl).2 ⟨hp, hop⟩,
        statusOk_of_busy .rxValidate rfl (by decide) (.inr (.inl hop)) hresult h.present_of_valid,
        fun _ => hframe, h.faults⟩
    · rw [if_neg hlast]
      have hnext : (s.idx + 1#17).toNat < 3 := by bv_omega
      exact ⟨h.buffers, h.reserved, (sequencerOk_rxHdr rfl).2 ⟨hp, hop, hnext⟩,
        statusOk_of_busy .rxHdr rfl (by decide) (.inr (.inl hop)) hresult h.present_of_valid,
        fun _ => hframe, h.faults⟩

theorem recvValidate_inv {s : State} (h : s.Inv) (hs : s.seq = .rxValidate) : (recvValidate s).Inv := by
  obtain ⟨hp, hop⟩ := (sequencerOk_rxValidate hs).1 h.sequencer
  have hresult := h.result_of_busy (by simp [hs])
  obtain ⟨-, hlastSum, htxWritten⟩ := h.reserved
  have hreserved : (recvMeasure s).ReservedClear := ⟨rxLenWord_reserved _, hlastSum, htxWritten⟩
  obtain ⟨-, hrun⟩ | ⟨hpass, hrun⟩ := recvValidate_cases s
  all_goals rw [hrun]
  · exact ⟨h.buffers, hreserved, (sequencerOk_idle rfl).2 hp,
      statusOk_of_ended (.inr (.inl hop)) rfl (fun _ => rfl) nofun fun _ => rfl, nofun, h.faults⟩
  · have hpos : 1 ≤ (s.h1 ++ s.h2 : Half).toNat := (lengthOk_iff.1 hpass).1
    have hplen := plenOfLen_toNat hpos
    have hrxLen := rxLenWord_toNat (s.h1 ++ s.h2)
    have hlt := (s.h1 ++ s.h2 : Half).isLt
    have hreceiving : ∀ n, n = 0 →
        State.Receiving { recvMeasure s with plen := (s.h1 ++ s.h2).setWidth 17 - 1#17, rxPresent := true } n := by
      rintro _ rfl
      exact ⟨hpos, by simp only [recvMeasure]; omega, by simp only [recvMeasure]; omega, rfl, nofun⟩
    by_cases hzero : (s.h1 ++ s.h2 : Half).setWidth 17 - 1#17 = 0#17
    · rw [if_pos hzero]
      have hnone := hreceiving _ (congrArg BitVec.toNat hzero)
      exact ⟨h.buffers, hreserved, (sequencerOk_rxSum rfl).2 ⟨hp, hop, hnone⟩,
        statusOk_of_busy .rxSum rfl (by decide) (.inr (.inl hop)) hresult fun _ => rfl,
        fun _ _ => State.Receiving.written hnone, h.faults⟩
    · rw [if_neg hzero]
      have hidx : 0 < ((s.h1 ++ s.h2 : Half).setWidth 17 - 1#17).toNat := by bv_omega
      exact ⟨h.buffers, hreserved, (sequencerOk_rxPay rfl).2 ⟨hp, hop, hidx, hreceiving _ rfl⟩,
        statusOk_of_busy .rxPay rfl (by decide) (.inr (.inl hop)) hresult fun _ => rfl,
        absurd rfl, h.faults⟩

/-- A byte written at RXP[count], where a payload is being received, is one byte more of it (R168). -/
theorem State.Receiving.write {s : State} {count : Nat} (h : s.Receiving count) (b : Byte) :
    State.Receiving { s with rxp := Memory.write s.rxp count b } (count + 1) := by
  obtain ⟨hlenf, hplen, hlen, hpresent, hbytes⟩ := h
  refine ⟨hlenf, hplen, hlen, hpresent, fun i hi => ?_⟩
  by_cases hlast : i = count
  · subst hlast
    simp only [Memory.read_write_same, Option.isSome_some]
  · simp only [Memory.read_write_other _ _ hlast]
    exact hbytes i (by omega)

theorem buffersOk_writeRxp {s : State} {i : Nat} (h : s.BuffersOk) (hi : i < Config.maxPayload) (b : Byte) :
    State.BuffersOk { s with rxp := Memory.write s.rxp i b } := by
  obtain ⟨htxp, ⟨hwf, hwithin⟩, htxb⟩ := h
  exact ⟨htxp, ⟨Memory.write_wf hwf i b, Memory.write_within hwithin hi b⟩, htxb⟩

theorem recvPayload_inv {s : State} (h : s.Inv) (hs : s.seq = .rxPay) : (recvPayload s).Inv := by
  obtain ⟨-, hrun⟩ | ⟨b, q, -, hrun⟩ := recvPayload_cases s
  · rwa [hrun]
  · obtain ⟨hp, hop, hidx, hreceiving⟩ := (sequencerOk_rxPay hs).1 h.sequencer
    have hresult := h.result_of_busy (by simp [hs])
    have hlt := s.plen.isLt
    have hnext : (s.idx + 1#17).toNat = s.idx.toNat + 1 := by bv_omega
    have hroom : s.idx.toNat < Config.maxPayload := by
      obtain ⟨-, hplen, -, -, -⟩ := hreceiving
      have := s.lenf.isLt
      rw [Config.maxPayload]
      omega
    have hbuffers := buffersOk_writeRxp h.buffers hroom b
    have hwritten := hreceiving.write b
    rw [← hnext] at hwritten
    rw [hrun]
    by_cases hlast : s.idx + 1#17 = s.plen
    · rw [if_pos hlast]
      rw [hlast] at hwritten
      exact ⟨hbuffers, h.reserved, (sequencerOk_rxSum rfl).2 ⟨hp, hop, hwritten⟩,
        statusOk_of_busy .rxSum rfl (by decide) (.inr (.inl hop)) hresult h.present_of_valid,
        fun _ _ => State.Receiving.written hwritten, h.faults⟩
    · rw [if_neg hlast]
      exact ⟨hbuffers, h.reserved, (sequencerOk_rxPay rfl).2 ⟨hp, hop, by bv_omega, hwritten⟩,
        statusOk_of_busy .rxPay rfl (by decide) (.inr (.inl hop)) hresult h.present_of_valid,
        absurd rfl, h.faults⟩

theorem recvSum_inv {s : State} (h : s.Inv) (hs : s.seq = .rxSum) : (recvSum s).Inv := by
  obtain ⟨-, hrun⟩ | ⟨b, q, -, hrun⟩ := recvSum_cases s
  · rwa [hrun]
  · obtain ⟨hp, hop, hreceiving⟩ := (sequencerOk_rxSum hs).1 h.sequencer
    rw [hrun]
    exact ⟨h.buffers, h.reserved, (sequencerOk_rxVerify rfl).2 ⟨hp, hop, hreceiving⟩,
      statusOk_of_busy .rxVerify rfl (by decide) (.inr (.inl hop)) (h.result_of_busy (by simp [hs]))
        h.present_of_valid,
      fun _ => h.frame (by simp [hs]), h.faults⟩

theorem recvVerify_inv {s : State} (h : s.Inv) (hs : s.seq = .rxVerify) : (recvVerify s).Inv := by
  obtain ⟨hp, hop, hreceiving⟩ := (sequencerOk_rxVerify hs).1 h.sequencer
  obtain ⟨-, -, -, hpresent, -⟩ := id hreceiving
  obtain ⟨hrxLen, -, htxWritten⟩ := h.reserved
  have hframe := h.frame (by simp [hs])
  obtain ⟨sum, -, ⟨-, hrun⟩ | ⟨-, hrun⟩⟩ := recvVerify_cases s
  all_goals rw [hrun]
  · exact ⟨h.buffers, ⟨hrxLen, setWidth_byte_reserved sum, htxWritten⟩, (sequencerOk_idle rfl).2 hp,
      statusOk_of_ended (.inr (.inl hop)) rfl (absurd rfl) (fun _ => hpresent) fun _ => rfl,
      fun _ => hframe, h.faults⟩
  · exact ⟨h.buffers, ⟨hrxLen, setWidth_byte_reserved sum, htxWritten⟩,
      (sequencerOk_rxErrf rfl).2 ⟨hop, rfl, rfl, rfl, fun b hb => by cases hb; rfl⟩,
      statusOk_of_busy .rxErrf rfl (by decide) (.inr (.inl hop)) rfl nofun,
      fun _ => hframe, h.faults⟩

theorem recvErrf_inv {s : State} (h : s.Inv) (hs : s.seq = .rxErrf) : (recvErrf s).Inv := by
  obtain ⟨-, hrun⟩ | ⟨hp, hrun⟩ := recvErrf_cases s
  · rwa [hrun]
  · obtain ⟨hop, hvalid, -, -, -⟩ := (sequencerOk_rxErrf hs).1 h.sequencer
    have hresult := h.result_of_busy (by simp [hs])
    rw [hrun]
    exact ⟨h.buffers, h.reserved, (sequencerOk_idle rfl).2 hp,
      statusOk_of_ended (.inr (.inl hop)) rfl (fun _ => hresult) h.present_of_valid
        fun _ => hresult.trans hvalid.symm,
      fun _ => h.frame (by simp [hs]), h.faults⟩

theorem advance_inv {s : State} (h : s.Inv) : (advance s).Inv := by
  cases hs : s.seq
  all_goals rw [advance, hs]
  case idle => exact h
  case txAsm => exact sendAssemble_inv h hs
  case txWrite => exact sendReply_inv h hs
  case csRun => exact csumRun_inv h hs
  case rxHdr => exact recvHeader_inv h hs
  case rxValidate => exact recvValidate_inv h hs
  case rxPay => exact recvPayload_inv h hs
  case rxSum => exact recvSum_inv h hs
  case rxVerify => exact recvVerify_inv h hs
  case rxErrf => exact recvErrf_inv h hs

/-! ## The reset input and the moves of the others -/

/-- Settles O44: the buffers are empty, the latches are those of IDLE, no command has run and nothing has faulted. -/
theorem resetMeetsTheInvariant : Obligations.ResetMeetsTheInvariant where
  buffers := ⟨⟨.nil, nofun⟩, ⟨.nil, nofun⟩, ⟨.nil, nofun⟩⟩
  reserved := ⟨by decide, by decide, txWritten_zero_reserved⟩
  sequencer := (sequencerOk_idle rfl).2 rfl
  status := ⟨fun _ => rfl, fun _ => ⟨rfl, rfl, rfl⟩, nofun, nofun, fun _ => rfl, nofun⟩
  frame := nofun
  faults := ⟨.nil, nofun, nofun⟩

/-- The reset input leaves the values of `State.reset`, but for FAULTS and the stopped agents, which it keeps. -/
theorem resetBlock_inv {s : State} (h : s.Inv) : (resetBlock s).Inv :=
  have hreset : State.reset.Inv := resetMeetsTheInvariant
  ⟨hreset.buffers, hreset.reserved, hreset.sequencer, hreset.status, hreset.frame, h.faults⟩

/-- Only a SEND and a RECV with its error frame wait for a reply (R63). -/
theorem seq_of_pending {s : State} {b : List Byte} (h : s.SequencerOk) (hp : s.pending = some b) :
    s.seq = .txWrite ∨ s.seq = .rxErrf := by
  cases hs : s.seq
  case txWrite => exact .inl rfl
  case rxErrf => exact .inr rfl
  case idle => exact nomatch ((sequencerOk_idle hs).1 h).symm.trans hp
  all_goals
    rw [State.SequencerOk, hs] at h
    exact nomatch h.left.symm.trans hp

/-- An answered request is what TX_WRITE and RX_ERRF allow. -/
theorem answer_inv {s : State} {b : List Byte} (h : s.Inv) (hp : s.pending = some b) (r : Reply) (count : Nat) :
    (answer r count b s).Inv where
  buffers := h.buffers
  reserved := h.reserved
  sequencer := by
    obtain hs | hs := seq_of_pending h.sequencer hp
    · obtain ⟨hop, hlen, -⟩ := (sequencerOk_txWrite hs).1 h.sequencer
      exact (sequencerOk_txWrite (s := answer r count b s) hs).2 ⟨hop, hlen, nofun⟩
    · obtain ⟨hop, hvalid, herr, herrf, -⟩ := (sequencerOk_rxErrf hs).1 h.sequencer
      exact (sequencerOk_rxErrf (s := answer r count b s) hs).2 ⟨hop, hvalid, herr, herrf, nofun⟩
  status := h.status
  frame := h.frame
  faults := h.faults

/-- A byte that the host writes to TXP is inside the buffer (R53). -/
theorem writeTxp_inv {s : State} {i : Nat} (h : s.Inv) (hi : i < 65534) (b : Byte) :
    State.Inv { s with txp := Memory.write s.txp i b } := by
  obtain ⟨⟨hwf, hwithin⟩, hrxp, htxb⟩ := h.buffers
  exact ⟨⟨⟨Memory.write_wf hwf i b, Memory.write_within hwithin hi b⟩, hrxp, htxb⟩, h.reserved, h.sequencer, h.status,
    h.frame, h.faults⟩

/-- Every effect of a move keeps the invariant; the reads and the moves of the queues touch nothing it speaks of. -/
theorem Effect.inv {s t : State} {m : Option Move} (e : Effect s m t) (h : s.Inv) : t.Inv := by
  cases e with
  | stay => exact h
  | writeFault _ _ _ r | readFault _ _ r => exact hostFault_inv h r
  | reject _ _ hs => exact reject_inv h hs
  | accept _ i hs => exact acceptOf_inv h hs i
  | txp i v _ _ hi => exact writeTxp_inv h hi _
  | read | drop | append | settle => exact ⟨h.buffers, h.reserved, h.sequencer, h.status, h.frame, h.faults⟩
  | ok k b hp => exact answer_inv h hp _ k
  | err p b hp => exact answer_inv h hp _ p
  | reset => exact resetBlock_inv h
  | advance => exact advance_inv h

/-- The list of moves is no part of the invariant. -/
theorem popped_inv {s : State} (h : s.Inv) : (popped s).Inv :=
  ⟨h.buffers, h.reserved, h.sequencer, h.status, h.frame, h.faults⟩

/-- Settles O45: a step is one of the effects of `step_effect`, and each keeps the invariant. -/
theorem stepKeepsTheInvariant : Obligations.StepKeepsTheInvariant :=
  fun _ _ h hstep => (step_effect hstep).inv (popped_inv h)

end Sys2Proof.Machine
end

section
/-! PROOFS. The command words read back from their encoding, the step a decoded command takes, and the agents that have
stopped and take none. -/

namespace Sys2Proof.Machine

/-! ## Encoding and decoding -/

/-- A word whose lower half is the OP is its LENGTH packed with that OP (R80). -/
theorem packWord_wordLength {w : Word} {op : BitVec 4} (h : w.toNat % 65536 = op.toNat) :
    packWord (wordLength w) op = w := by
  apply BitVec.eq_of_toNat_eq
  rw [packWord_toNat, wordLength_toNat, ← h]
  omega

/-- The lower half of a packed word is its OP. -/
theorem packWord_low (length : Half) (op : BitVec 4) : (packWord length op).toNat % 65536 = op.toNat := by
  have hop := op.isLt
  rw [packWord_toNat]
  omega

theorem decode_encode (i : Instr) : decode (encode i) = .command i := by
  cases i with
  | send n => rw [encode, decode_send (packWord_low n 1#4), wordLength_packWord]
  | recv => exact decode_recv (packWord_toNat 0#16 2#4)
  | csum n => rw [encode, decode_csum (packWord_low n 3#4), wordLength_packWord]

/-- A word that decodes to a command is that command's word: the words of no row decode to none. -/
theorem encode_of_decode {w : Word} {i : Instr} (h : decode w = .command i) : encode i = w := by
  by_cases hsend : w.toNat % 65536 = 1
  · cases (decode_send hsend).symm.trans h
    exact packWord_wordLength hsend
  by_cases hrecv : w.toNat = 2
  · cases (decode_recv hrecv).symm.trans h
    exact BitVec.eq_of_toNat_eq ((packWord_toNat 0#16 2#4).trans hrecv.symm)
  by_cases hcsum : w.toNat % 65536 = 3
  · cases (decode_csum hcsum).symm.trans h
    exact packWord_wordLength hcsum
  obtain ⟨why, hwhy⟩ := decode_illegal hsend hrecv hcsum
  cases hwhy.symm.trans h

/-- Settles O4: each command's word has the numbers of its row, and each row is packed back to the word it reads. -/
theorem decodeAndEncodeAgree : Obligations.DecodeAndEncodeAgree :=
  ⟨decode_encode, fun _ _ h => encode_of_decode h⟩

/-- Settles O1: the decoder computes on each of the words. -/
theorem specWordsDecode : Obligations.SpecWordsDecode := by
  unfold Obligations.SpecWordsDecode
  decide

/-! ## The step of a command -/

theorem decode_of_commandOf {d : Decoded} {i : Instr} (h : commandOf d = some i) : d = .command i := by
  cases d with
  | command j => exact congrArg Decoded.command (Option.some.inj h)
  | illegal why => cases h

/-- Settles O5: the write of a command word and the placed word are accepted by the idle block, which is `exec` in IDLE,
and a turn of the block is `exec` of the command in progress. -/
theorem stepRunsTheDecodedCommand : Obligations.StepRunsTheDecodedCommand := by
  refine ⟨fun s w i rest hs hh hb hm hd => ?_, fun s i rest hi hb hm => ?_, fun s i hi hb hm => ?_,
    fun s nbits w i hi => ?_⟩
  · rw [step_command hs hh hb hm hd]
    exact (exec_idle (s := { s with moves := rest }) hs i).symm
  · rw [step_cons hm]
    exact blockTurn_inFlight (s := { s with moves := rest }) hi hb
  · rw [step_nil hm, blockTurn_inFlight hi hb]
  · have hd : decode (tableWord nbits w) = .command i := decode_of_commandOf hi
    rw [exec_idle rfl]
    exact step_command (s := s.withFetchWord nbits w) rfl rfl rfl rfl hd

/-- Settles O7: `exec` in IDLE is the accept step, read for each of the three commands. -/
theorem idleBlockAcceptsEveryCommand : Obligations.IdleBlockAcceptsEveryCommand :=
  fun _ hs => ⟨fun n => exec_idle hs (.send n), exec_idle hs .recv, fun n => exec_idle hs (.csum n)⟩

/-- Settles O8: each of the three things `exec` can answer is a next state. -/
theorem noCommandTraps : Obligations.NoCommandTraps := by
  intro i s
  obtain ⟨-, h⟩ | ⟨-, h⟩ | ⟨-, -, h⟩ := exec_cases i s
  all_goals exact ⟨_, h⟩

/-- Settles O42: the reset values are written out in `State.reset`. -/
theorem resetValues : Obligations.ResetValues :=
  ⟨rfl, by decide, rfl, rfl, rfl, by decide, rfl, rfl, fun i => Memory.read_nil i, rfl⟩

/-! ## Stopped agents -/

/-- A host that has faulted makes none of its moves (R217). -/
theorem takeMove_stopped {s : State} {m : Move} (h : s.hostStopped = true) (hm : m.ofHost = true) :
    takeMove m s = .next s := by
  cases m with
  | hostWrite | hostRead | hostDrop => exact if_pos h
  | peerAppend | replyOk | replyErr | settleAbandoned | reset | block => cases hm

theorem blockTurn_stopped {s : State} (h : s.blockStopped = true) : blockTurn s = .next s := by
  rw [blockTurn_eq, if_pos h]

/-- Settles O47: a stopped host is stopped before each of its moves, a stopped block before its turn, and a word that a
running host writes to CMD in IDLE is not taken. -/
theorem stoppedAgentsTakeNoStep : Obligations.StoppedAgentsTakeNoStep := by
  intro s rest
  have hhost : s.hostStopped = true → ∀ m : Move, m.ofHost = true → s.moves = m :: rest →
      step s = .next { s with moves := rest } := fun hh m hm hmoves =>
    (step_cons hmoves).trans (takeMove_stopped (s := { s with moves := rest }) hh hm)
  refine ⟨hhost, fun hb hmoves => ?_, fun hb hmoves => ?_, fun w hb hs hmoves => ?_⟩
  · rw [step_cons hmoves]
    exact blockTurn_stopped (s := { s with moves := rest }) hb
  · rw [step_nil hmoves, blockTurn_stopped hb]
  · by_cases hh : s.hostStopped = true
    · exact hhost hh _ rfl hmoves
    · rw [step_writeCmd (Bool.eq_false_iff.2 hh) hmoves]
      exact writeCmd_stopped (s := { s with moves := rest }) hs hb w

end Sys2Proof.Machine
end

section
/-! PROOFS. What each command leaves unchanged, in whatever state it runs: the frames of CSUM, SEND and RECV. -/

namespace Sys2Proof.Machine

/-! ## The state a command in progress stands in -/

theorem seq_of_inFlight_csum {s : State} {n : Half} (h : s.inFlight = some (.csum n)) : s.seq = .csRun := by
  cases hs : s.seq
  case csRun => rfl
  all_goals
    rw [State.inFlight, hs] at h
    cases h

theorem seq_of_inFlight_send {s : State} {n : Half} (h : s.inFlight = some (.send n)) :
    s.seq = .txAsm ∨ s.seq = .txWrite := by
  cases hs : s.seq
  case txAsm => exact .inl rfl
  case txWrite => exact .inr rfl
  all_goals
    rw [State.inFlight, hs] at h
    cases h

/-! ## CSUM -/

/-- Settles O12: the accept and BUSY_COMMAND write their own fields, and so does each case of the CS_RUN step. -/
theorem csumFrame : Obligations.CsumFrame := by
  intro n s t h
  obtain ⟨hs, hrun⟩ | ⟨hi, hrun⟩ | ⟨hs, -, hrun⟩ := exec_cases (.csum n) s
  all_goals cases hrun.symm.trans h
  · exact ⟨rfl, fun _ => ⟨rfl, rfl, rfl, rfl⟩, fun hne => absurd hs hne, fun _ => ⟨rfl, rfl, rfl⟩⟩
  · have hs : s.seq = .csRun := seq_of_inFlight_csum hi
    rw [advance, hs]
    obtain ⟨-, hcase⟩ | ⟨-, -, hcase⟩ | ⟨p, -, -, hcase⟩ := csumRun_cases s
    all_goals
      rw [hcase]
      exact ⟨rfl, nofun, fun _ => ⟨rfl, rfl⟩, fun _ => ⟨rfl, rfl, rfl⟩⟩
  · exact ⟨rfl, fun hidle => absurd hidle hs, fun _ => ⟨rfl, rfl⟩, fun _ => ⟨rfl, rfl, rfl⟩⟩

/-! ## SEND -/

theorem sendAssemble_unwritten {s : State} (hl : s.curLen.toNat ≤ 65534)
    (h : ∃ i < s.curLen.toNat, Memory.read s.txp i = none) : sendAssemble s = blockFault .unwrittenTxp s := by
  obtain ⟨hlong, -⟩ | ⟨-, -, hrun⟩ | ⟨p, -, hp, hholds, -⟩ := sendAssemble_cases s
  · omega
  · exact hrun
  · cases (operandPayload_eq_none.2 h).symm.trans (operandPayload_eq_some.2 ⟨hp, hholds⟩)

/-- Settles O14: with a byte missing the TX_ASM step is the block's fault, which writes FAULTS and the stop alone. -/
theorem sendOfUnwrittenBytesFaults : Obligations.SendOfUnwrittenBytesFaults := by
  intro s hs hl hunwritten
  rw [exec_send_txAsm hs, sendAssemble_unwritten hl hunwritten]
  exact ⟨addFault s.faults .unwrittenTxp, mem_addFault s.faults .unwrittenTxp, rfl⟩

/-- Settles O17: the one store is the frame's to TXB, whose bytes are those below L + 4; each other case of the accept,
the two steps and BUSY_COMMAND writes registers only. -/
theorem sendFrame : Obligations.SendFrame := by
  intro n s t h
  obtain ⟨hs, hrun⟩ | ⟨hi, hrun⟩ | ⟨hs, -, hrun⟩ := exec_cases (.send n) s
  all_goals cases hrun.symm.trans h
  · exact ⟨rfl, fun _ => ⟨rfl, rfl⟩, fun _ _ => rfl, fun _ => ⟨fun _ => rfl, rfl, rfl, rfl, rfl⟩,
      fun hne => absurd hs hne⟩
  · obtain hs | hs := seq_of_inFlight_send hi
    all_goals rw [advance, hs]
    · obtain ⟨-, hcase⟩ | ⟨-, -, hcase⟩ | ⟨p, -, hp, -, hcase⟩ := sendAssemble_cases s
      all_goals
        rw [hcase]
        refine ⟨rfl, fun _ => ⟨rfl, rfl⟩, fun a ha => ?_, fun hne => absurd rfl hne, fun _ => ⟨rfl, rfl⟩⟩
      · rfl
      · rfl
      · refine Memory.read_writeBytes_other s.txb (.inr ?_)
        rw [Nat.zero_add, frameOf_length, hp]
        exact ha
    · obtain ⟨-, hcase⟩ | ⟨ok, -, -, hcase⟩ := sendReply_cases s
      all_goals
        rw [hcase]
        exact ⟨rfl, fun _ => ⟨rfl, rfl⟩, fun _ _ => rfl, fun _ => ⟨fun _ => rfl, rfl, rfl, rfl, rfl⟩,
          fun _ => ⟨rfl, rfl⟩⟩
  · exact ⟨rfl, fun _ => ⟨rfl, rfl⟩, fun _ _ => rfl, fun _ => ⟨fun _ => rfl, rfl, rfl, rfl, rfl⟩,
      fun _ => ⟨rfl, rfl⟩⟩

/-! ## RECV -/

/-- What a step of RECV from s to t leaves: the fields that R160 does not list, TXP and TXB, and by the state it starts in,
RXP but for the byte at IDX, the checksum and the request, RX_VALID and ERRFRAME, and RX_PRESENT and RX_LEN. -/
def RecvLeaves (s t : State) : Prop :=
  t = { s with
        seq := t.seq, lastOp := t.lastOp, result := t.result, err := t.err, rxValid := t.rxValid,
        rxPresent := t.rxPresent, sumValid := t.sumValid, errFrame := t.errFrame, rxLen := t.rxLen,
        rxInfo := t.rxInfo, lastSum := t.lastSum, rxp := t.rxp, acc := t.acc, idx := t.idx, h0 := t.h0, h1 := t.h1,
        h2 := t.h2, lenf := t.lenf, plen := t.plen, avs := t.avs, rxs := t.rxs, rxq := t.rxq, pending := t.pending,
        faults := t.faults, hostStopped := t.hostStopped } ∧
    (∀ a, Memory.read t.txp a = Memory.read s.txp a ∧ Memory.read t.txb a = Memory.read s.txb a) ∧
    (∀ a, a ≠ s.idx.toNat ∨ s.seq ≠ .rxPay → Memory.read t.rxp a = Memory.read s.rxp a) ∧
    (s.seq ≠ .rxVerify →
      t.acc = s.acc ∧ t.lastSum = s.lastSum ∧ t.sumValid = s.sumValid ∧ t.pending = s.pending) ∧
    (s.seq ≠ .rxVerify → s.seq ≠ .rxValidate → t.rxValid = s.rxValid ∧ t.errFrame = s.errFrame) ∧
    (s.seq ≠ .rxValidate → t.rxPresent = s.rxPresent ∧ t.rxLen = s.rxLen)

/-- The accept, a header byte, the checksum byte, the end after a reply, a wait and BUSY_COMMAND write no field that
`RecvLeaves` guards by a state. -/
theorem recvLeaves_of_unguarded {s t : State}
    (h : t = { s with
      seq := t.seq, lastOp := t.lastOp, result := t.result, err := t.err, rxInfo := t.rxInfo, idx := t.idx, h0 := t.h0,
      h1 := t.h1, h2 := t.h2, rxs := t.rxs, rxq := t.rxq, faults := t.faults, hostStopped := t.hostStopped }) :
    RecvLeaves s t := by
  rw [h]
  exact ⟨rfl, fun _ => ⟨rfl, rfl⟩, fun _ _ => rfl, fun _ => ⟨rfl, rfl, rfl, rfl⟩, fun _ _ => ⟨rfl, rfl⟩,
    fun _ => ⟨rfl, rfl⟩⟩

theorem recvHeader_leaves (s : State) : RecvLeaves s (recvHeader s) := by
  obtain ⟨-, h⟩ | ⟨b, q, -, h⟩ := recvHeader_cases s
  all_goals
    rw [h]
    exact recvLeaves_of_unguarded rfl

theorem recvValidate_leaves {s : State} (hs : s.seq = .rxValidate) : RecvLeaves s (recvValidate s) := by
  obtain ⟨-, h⟩ | ⟨-, h⟩ := recvValidate_cases s
  all_goals
    rw [h]
    exact ⟨rfl, fun _ => ⟨rfl, rfl⟩, fun _ _ => rfl, fun _ => ⟨rfl, rfl, rfl, rfl⟩, fun _ hne => absurd hs hne,
      fun hne => absurd hs hne⟩

theorem recvPayload_leaves {s : State} (hs : s.seq = .rxPay) : RecvLeaves s (recvPayload s) := by
  obtain ⟨-, h⟩ | ⟨b, q, -, h⟩ := recvPayload_cases s
  all_goals rw [h]
  · exact recvLeaves_of_unguarded rfl
  · exact ⟨rfl, fun _ => ⟨rfl, rfl⟩, fun a ha => Memory.read_write_other s.rxp b (ha.resolve_right (absurd hs)),
      fun _ => ⟨rfl, rfl, rfl, rfl⟩, fun _ _ => ⟨rfl, rfl⟩, fun _ => ⟨rfl, rfl⟩⟩

theorem recvSum_leaves (s : State) : RecvLeaves s (recvSum s) := by
  obtain ⟨-, h⟩ | ⟨b, q, -, h⟩ := recvSum_cases s
  all_goals
    rw [h]
    exact recvLeaves_of_unguarded rfl

theorem recvVerify_leaves {s : State} (hs : s.seq = .rxVerify) : RecvLeaves s (recvVerify s) := by
  obtain ⟨sum, -, ⟨-, h⟩ | ⟨-, h⟩⟩ := recvVerify_cases s
  all_goals
    rw [h]
    exact ⟨rfl, fun _ => ⟨rfl, rfl⟩, fun _ _ => rfl, fun hne => absurd hs hne, fun hne => absurd hs hne,
      fun _ => ⟨rfl, rfl⟩⟩

theorem recvErrf_leaves (s : State) : RecvLeaves s (recvErrf s) := by
  obtain ⟨-, h⟩ | ⟨-, h⟩ := recvErrf_cases s
  all_goals
    rw [h]
    exact recvLeaves_of_unguarded rfl

theorem advance_recv_leaves {s : State} (h : s.inFlight = some .recv) : RecvLeaves s (advance s) := by
  cases hs : s.seq
  case idle | txAsm | txWrite | csRun =>
    rw [State.inFlight, hs] at h
    cases h
  all_goals rw [advance, hs]
  case rxHdr => exact recvHeader_leaves s
  case rxValidate => exact recvValidate_leaves hs
  case rxPay => exact recvPayload_leaves hs
  case rxSum => exact recvSum_leaves s
  case rxVerify => exact recvVerify_leaves hs
  case rxErrf => exact recvErrf_leaves s

/-- Settles O26: the accept and BUSY_COMMAND leave what `RecvLeaves` names, and so does each step of a RECV in progress. -/
theorem recvFrame : Obligations.RecvFrame := by
  intro s t h
  change RecvLeaves s t
  obtain ⟨-, hrun⟩ | ⟨hi, hrun⟩ | ⟨-, -, hrun⟩ := exec_cases .recv s
  all_goals cases hrun.symm.trans h
  · exact recvLeaves_of_unguarded rfl
  · exact advance_recv_leaves hi
  · exact recvLeaves_of_unguarded rfl

end Sys2Proof.Machine
end

section
/-! PROOFS. The host window's accesses to TXP and its reads of the result registers, the sizes it refuses, and the moves of
RXQ. -/

namespace Sys2Proof.Machine

/-! ## TXP -/

theorem writeTxp_idle {s : State} (h : s.seq = .idle) (i : Nat) (b : Byte) :
    writeTxp i b s = .next { s with txp := Memory.write s.txp i b } := by
  rw [writeTxp, busy_eq_false.2 h]
  rfl

theorem writeTxp_busy {s : State} (h : s.seq ≠ .idle) (i : Nat) (b : Byte) :
    writeTxp i b s = .next (hostFault .hazard s) := by
  rw [writeTxp, if_pos (busy_eq_true.2 h), faultHost]

theorem readTxp_busy {s : State} (h : s.seq ≠ .idle) (i : Nat) : readTxp i s = .next (hostFault .hazard s) := by
  rw [readTxp, if_pos (busy_eq_true.2 h), faultHost]

theorem readTxp_written {s : State} {i : Nat} {b : Byte} (h : s.seq = .idle) (hb : Memory.read s.txp i = some b) :
    readTxp i s = .next { s with readData := b.setWidth 32 } := by
  rw [readTxp, busy_eq_false.2 h, hb]
  rfl

theorem readTxp_unwritten {s : State} {i : Nat} (h : s.seq = .idle) (hb : Memory.read s.txp i = none) :
    readTxp i s = .next (hostFault .unwrittenTxp s) := by
  rw [readTxp, busy_eq_false.2 h, hb]
  rfl

theorem readPlace_txp_byte (i : Nat) (s : State) : readPlace (.txp i) 1 s = readTxp i s := by
  rw [readPlace, if_pos rfl]

theorem writePlace_txp_byte (i : Nat) (v : Word) (s : State) :
    writePlace (.txp i) 1 v s = writeTxp i (v.extractLsb' 0 8) s := by
  rw [writePlace, if_pos rfl]

/-- A read by a running host at the address of TXP[i], of any size. -/
theorem step_hostRead_txp {s : State} {i n : Nat} {rest : List Move} (hh : s.hostStopped = false) (hi : i < 65534)
    (hm : s.moves = .hostRead (txpAddr s.params i) n :: rest) :
    step s = readPlace (.txp i) n { s with moves := rest } := by
  rw [step_hostRead hh hm (windowOffset_txpAddr hi), placeOf_txp hi]

/-- A write by a running host at the address of TXP[i], of any size. -/
theorem step_hostWrite_txp {s : State} {i n : Nat} {v : Word} {rest : List Move} (hh : s.hostStopped = false)
    (hi : i < 65534) (hm : s.moves = .hostWrite (txpAddr s.params i) n v :: rest) :
    step s = writePlace (.txp i) n v { s with moves := rest } := by
  rw [step_hostWrite hh hm (windowOffset_txpAddr hi), placeOf_txp hi]

/-! ## Sizes -/

theorem readPlace_txp_size {n : Nat} (h : n ≠ 1) (i : Nat) (s : State) :
    readPlace (.txp i) n s = .next (hostFault .hostAccess s) :=
  if_neg h

theorem writePlace_txp_size {n : Nat} (h : n ≠ 1) (i : Nat) (v : Word) (s : State) :
    writePlace (.txp i) n v s = .next (hostFault .hostAccess s) :=
  if_neg h

theorem readPlace_rxp_size {n : Nat} (h : n ≠ 1) (i : Nat) (s : State) :
    readPlace (.rxp i) n s = .next (hostFault .hostAccess s) :=
  if_neg h

theorem readPlace_reg_size {n : Nat} (h : n ≠ 4) (r : Reg) (s : State) :
    readPlace (.reg r) n s = .next (hostFault .hostAccess s) := by
  cases r with
  | cmd => rfl
  | status | rxLen | rxInfo | lastSum | txWritten => exact if_neg h

theorem writePlace_reg_size {n : Nat} (h : n ≠ 4) (r : Reg) (v : Word) (s : State) :
    writePlace (.reg r) n v s = .next (hostFault .hostAccess s) := by
  cases r with
  | cmd => exact if_neg h
  | status | rxLen | rxInfo | lastSum | txWritten => rfl

/-- Settles O34: an access of one byte is `writeTxp` or `readTxp`, which have a lemma per case of R53; any other size fails
the width check before them. -/
theorem txpAccess : Obligations.TxpAccess := by
  intro s i rest hh hi
  refine ⟨fun v hm => ?_, fun hm => ?_, fun n hn _ hm => ?_⟩
  · have hstep : step s = writeTxp i (v.extractLsb' 0 8) { s with moves := rest } :=
      (step_hostWrite_txp hh hi hm).trans (writePlace_txp_byte i v _)
    rw [hstep]
    exact ⟨fun hs => ⟨_, writeTxp_idle (s := { s with moves := rest }) hs i _, Memory.read_write_same _ _ _,
      fun a ha => Memory.read_write_other _ _ ha⟩, fun hs => writeTxp_busy (s := { s with moves := rest }) hs i _⟩
  · have hstep : step s = readTxp i { s with moves := rest } :=
      (step_hostRead_txp hh hi hm).trans (readPlace_txp_byte i _)
    rw [hstep]
    exact ⟨fun b hs hb => readTxp_written (s := { s with moves := rest }) hs hb,
      fun hs hb => readTxp_unwritten (s := { s with moves := rest }) hs hb,
      fun hs => readTxp_busy (s := { s with moves := rest }) hs i⟩
  · obtain hm | ⟨v, hm⟩ := hm
    · rw [step_hostRead_txp hh hi hm, readPlace_txp_size hn]
    · rw [step_hostWrite_txp hh hi hm, writePlace_txp_size hn]

/-- The offsets of the registers (R50). -/
theorem placeOf_reg_of_mem {off : Nat} (h : off ∈ [0x0, 0x4, 0x8, 0xC, 0x10, 0x14]) : ∃ r, placeOf off = .reg r := by
  obtain rfl | h := List.mem_cons.1 h
  · exact ⟨.cmd, rfl⟩
  · obtain ⟨r, -, hp⟩ := placeOf_readOnlyReg h
    exact ⟨r, hp⟩

/-- The offsets from TXP[0] to TXP[65533] (R50). -/
theorem placeOf_txp_of_mem {off : Nat} (h : 0x10000 ≤ off ∧ off ≤ 0x1FFFD) : placeOf off = .txp (off - txpOffset) := by
  obtain ⟨i, rfl⟩ := Nat.exists_eq_add_of_le h.1
  exact (placeOf_txp (by omega)).trans (by rw [txpOffset, Nat.add_sub_cancel_left])

theorem lt_of_mem_regOffsets {off : Nat} (h : off ∈ [0x0, 0x4, 0x8, 0xC, 0x10, 0x14]) : off < 0x40000 := by
  simp only [List.mem_cons, List.not_mem_nil, or_false] at h
  omega

/-- Settles O38: each offset is a register or a buffer byte, whose size check comes before the state is looked at. -/
theorem wrongSizesAreHostAccessFaults : Obligations.WrongSizesAreHostAccessFaults := by
  intro s off n rest hh hplace hm
  have hoff : off < 0x40000 := by
    obtain ⟨hreg, -⟩ | ⟨hbuf, -⟩ := hplace
    · exact lt_of_mem_regOffsets hreg
    · omega
  have hfault : ∀ t : State, readPlace (placeOf off) n t = .next (hostFault .hostAccess t) ∧
      ∀ v, writePlace (placeOf off) n v t = .next (hostFault .hostAccess t) := by
    intro t
    obtain ⟨hreg, hn⟩ | ⟨htxp | hrxp, hn⟩ := hplace
    · obtain ⟨r, hp⟩ := placeOf_reg_of_mem hreg
      rw [hp]
      exact ⟨readPlace_reg_size hn r t, fun v => writePlace_reg_size hn r v t⟩
    · rw [placeOf_txp_of_mem htxp]
      exact ⟨readPlace_txp_size hn _ t, fun v => writePlace_txp_size hn _ v t⟩
    · rw [placeOf_rxp_of_mem hrxp]
      exact ⟨readPlace_rxp_size hn _ t, fun v => writePlace_rxp _ n v t⟩
  obtain ⟨hread, hwrite⟩ := hfault { s with moves := rest }
  obtain hm | ⟨v, hm⟩ := hm
  · rw [step_hostRead hh hm (windowOffset_base_add hoff), hread]
  · rw [step_hostWrite hh hm (windowOffset_base_add hoff), hwrite]

/-! ## The result registers -/

theorem readResult_busy {s : State} (h : s.seq ≠ .idle) (v : Word) :
    readResult v s = .next (hostFault .hazard s) := by
  rw [readResult, if_pos (busy_eq_true.2 h), faultHost]

theorem readResult_idle {s : State} (h : s.seq = .idle) (v : Word) : readResult v s = .next { s with readData := v } := by
  rw [readResult, busy_eq_false.2 h]
  rfl

theorem readLastSum_busy {s : State} (h : s.seq ≠ .idle) : readLastSum s = .next (hostFault .hazard s) := by
  rw [readLastSum, if_pos (busy_eq_true.2 h), faultHost]

theorem readLastSum_unwritten {s : State} (h : s.seq = .idle) (hv : s.sumValid = false) :
    readLastSum s = .next (hostFault .lastSumUnwritten s) := by
  rw [readLastSum, busy_eq_false.2 h, hv]
  rfl

theorem readLastSum_valid {s : State} (h : s.seq = .idle) (hv : s.sumValid = true) :
    readLastSum s = .next { s with readData := s.lastSum } := by
  rw [readLastSum, busy_eq_false.2 h, if_neg Bool.false_ne_true, if_pos hv, returnData]

/-- Settles O36: the whole read of RX_LEN, RX_INFO and TX_WRITTEN is `readResult`, and that of LAST_SUM is `readLastSum`,
which looks at SUM_VALID only in IDLE. -/
theorem resultRegisterReads : Obligations.ResultRegisterReads := by
  intro s r rest hh hr hm
  have hresult : ∀ v, step s = readResult v { s with moves := rest } →
      (s.seq ≠ .idle → step s = .next (hostFault .hazard { s with moves := rest })) ∧
        (s.seq = .idle → step s = .next { s with moves := rest, readData := v }) := fun v hstep =>
    ⟨fun hs => hstep.trans (readResult_busy (s := { s with moves := rest }) hs v),
      fun hs => hstep.trans (readResult_idle (s := { s with moves := rest }) hs v)⟩
  have hstep := step_readReg hh hm
  cases r with
  | cmd | status => simp at hr
  | rxLen | rxInfo | txWritten =>
    obtain ⟨hbusy, hidle⟩ := hresult _ hstep
    exact ⟨hbusy, nofun, fun hs _ => hidle hs⟩
  | lastSum =>
    exact ⟨fun hs => hstep.trans (readLastSum_busy (s := { s with moves := rest }) hs),
      fun hs _ hv => hstep.trans (readLastSum_unwritten (s := { s with moves := rest }) hs hv),
      fun hs hv => hstep.trans (readLastSum_valid (s := { s with moves := rest }) hs (hv rfl))⟩

/-! ## RXQ -/

theorem hostDrop_idle {s : State} {n : Nat} (h : s.seq = .idle) (hn : n ≤ s.rxq.length) :
    hostDrop n s = .next { s with rxq := s.rxq.drop n } := by
  have hallowed : ¬ (s.busy = true ∨ s.rxq.length < n) :=
    not_or.2 ⟨fun hb => busy_eq_true.1 hb h, Nat.not_lt.2 hn⟩
  rw [hostDrop, if_neg hallowed]

/-- Settles O40: the append is taken in any state, and the drop, of a running host, is `hostDrop_idle`. -/
theorem queueMoves : Obligations.QueueMoves := by
  refine fun s rest => ⟨fun bs hm => step_cons hm, fun n hm hh hs hn => ?_⟩
  rw [step_cons hm, takeMove, byHost_running (s := { s with moves := rest }) hh]
  exact hostDrop_idle (s := { s with moves := rest }) hs hn

end Sys2Proof.Machine
end

section
/-! PROOFS. Who changes what, over all steps: FAULTS and the stopped agents, TXP and the streams, the abandoned requests, and
the order of the sequencer's states. -/

namespace Sys2Proof.Machine

/-! ## The block's turn -/

theorem advance_idle {s : State} (h : s.seq = .idle) : advance s = s := by
  rw [advance, h]

theorem advance_txAsm {s : State} (h : s.seq = .txAsm) : advance s = sendAssemble s := by
  rw [advance, h]

theorem advance_txWrite {s : State} (h : s.seq = .txWrite) : advance s = sendReply s := by
  rw [advance, h]

theorem advance_csRun {s : State} (h : s.seq = .csRun) : advance s = csumRun s := by
  rw [advance, h]

theorem advance_rxHdr {s : State} (h : s.seq = .rxHdr) : advance s = recvHeader s := by
  rw [advance, h]

theorem advance_rxValidate {s : State} (h : s.seq = .rxValidate) : advance s = recvValidate s := by
  rw [advance, h]

theorem advance_rxPay {s : State} (h : s.seq = .rxPay) : advance s = recvPayload s := by
  rw [advance, h]

theorem advance_rxSum {s : State} (h : s.seq = .rxSum) : advance s = recvSum s := by
  rw [advance, h]

theorem advance_rxVerify {s : State} (h : s.seq = .rxVerify) : advance s = recvVerify s := by
  rw [advance, h]

theorem advance_rxErrf {s : State} (h : s.seq = .rxErrf) : advance s = recvErrf s := by
  rw [advance, h]

theorem busy_of_inFlight {s : State} {i : Instr} (h : s.inFlight = some i) : s.seq ≠ .idle :=
  fun hs => nomatch (inFlight_eq_none.2 hs).symm.trans h

/-- The block's turn leaves TXP, TXS, the abandoned requests and the latched LENGTH: no command's frame lists them, but
for the LENGTH that an accept latches. -/
theorem advance_keeps (s : State) :
    (advance s).txp = s.txp ∧ (advance s).txs = s.txs ∧ (advance s).abandoned = s.abandoned ∧
      (advance s).curLen = s.curLen := by
  cases hi : s.inFlight with
  | none =>
    rw [advance_idle (inFlight_eq_none.1 hi)]
    exact ⟨rfl, rfl, rfl, rfl⟩
  | some i =>
    have hrun := exec_inFlight hi
    have hbusy := busy_of_inFlight hi
    cases i with
    | send n =>
      obtain ⟨heq, -, -, -, hlatch⟩ := sendFrame n s _ hrun
      exact ⟨(congrArg State.txp heq :), (congrArg State.txs heq :), (congrArg State.abandoned heq :),
        (hlatch hbusy).right⟩
    | csum n =>
      obtain ⟨heq, -, hlatch, -⟩ := csumFrame n s _ hrun
      exact ⟨(congrArg State.txp heq :), (congrArg State.txs heq :), (congrArg State.abandoned heq :),
        (hlatch hbusy).right⟩
    | recv =>
      obtain ⟨heq, -⟩ := recvFrame s _ hrun
      exact ⟨(congrArg State.txp heq :), (congrArg State.txs heq :), (congrArg State.abandoned heq :),
        (congrArg State.curLen heq :)⟩

/-- t has the faults and the stopped agents of s. -/
def SameFaults (s t : State) : Prop :=
  t.faults = s.faults ∧ t.hostStopped = s.hostStopped ∧ t.blockStopped = s.blockStopped

theorem advance_recv_sameFaults {s : State} (h : s.inFlight = some .recv) : SameFaults s (advance s) := by
  cases hs : s.seq
  case idle | txAsm | txWrite | csRun =>
    rw [State.inFlight, hs] at h
    cases h
  case rxHdr =>
    rw [advance_rxHdr hs]
    obtain ⟨-, h⟩ | ⟨b, q, -, h⟩ := recvHeader_cases s
    all_goals
      rw [h]
      exact ⟨rfl, rfl, rfl⟩
  case rxValidate =>
    rw [advance_rxValidate hs]
    obtain ⟨-, h⟩ | ⟨-, h⟩ := recvValidate_cases s
    all_goals
      rw [h]
      exact ⟨rfl, rfl, rfl⟩
  case rxPay =>
    rw [advance_rxPay hs]
    obtain ⟨-, h⟩ | ⟨b, q, -, h⟩ := recvPayload_cases s
    all_goals
      rw [h]
      exact ⟨rfl, rfl, rfl⟩
  case rxSum =>
    rw [advance_rxSum hs]
    obtain ⟨-, h⟩ | ⟨b, q, -, h⟩ := recvSum_cases s
    all_goals
      rw [h]
      exact ⟨rfl, rfl, rfl⟩
  case rxVerify =>
    rw [advance_rxVerify hs]
    obtain ⟨sum, -, ⟨-, h⟩ | ⟨-, h⟩⟩ := recvVerify_cases s
    all_goals
      rw [h]
      exact ⟨rfl, rfl, rfl⟩
  case rxErrf =>
    rw [advance_rxErrf hs]
    obtain ⟨-, h⟩ | ⟨-, h⟩ := recvErrf_cases s
    all_goals
      rw [h]
      exact ⟨rfl, rfl, rfl⟩

/-- The block's turn faults only where a SEND or a CSUM lacks a byte of TXP (R217). -/
theorem advance_faults (s : State) :
    SameFaults s (advance s) ∨
      ((s.seq = .txAsm ∨ s.seq = .csRun) ∧ s.curLen.toNat ≤ 65534 ∧
        (∃ i < s.curLen.toNat, Memory.read s.txp i = none) ∧ advance s = blockFault .unwrittenTxp s) := by
  cases hs : s.seq
  case idle =>
    rw [advance_idle hs]
    exact .inl ⟨rfl, rfl, rfl⟩
  case txAsm =>
    rw [advance_txAsm hs]
    obtain ⟨-, h⟩ | ⟨hl, hp, h⟩ | ⟨p, -, -, -, h⟩ := sendAssemble_cases s
    all_goals rw [h]
    · exact .inl ⟨rfl, rfl, rfl⟩
    · exact .inr ⟨.inl rfl, hl, operandPayload_eq_none.1 hp, rfl⟩
    · exact .inl ⟨rfl, rfl, rfl⟩
  case txWrite =>
    rw [advance_txWrite hs]
    obtain ⟨-, h⟩ | ⟨ok, -, -, h⟩ := sendReply_cases s
    all_goals
      rw [h]
      exact .inl ⟨rfl, rfl, rfl⟩
  case csRun =>
    rw [advance_csRun hs]
    obtain ⟨-, h⟩ | ⟨hl, hp, h⟩ | ⟨p, -, -, h⟩ := csumRun_cases s
    all_goals rw [h]
    · exact .inl ⟨rfl, rfl, rfl⟩
    · exact .inr ⟨.inr rfl, hl, operandPayload_eq_none.1 hp, rfl⟩
    · exact .inl ⟨rfl, rfl, rfl⟩
  all_goals exact .inl (advance_recv_sameFaults (by rw [State.inFlight, hs]))

/-- The block's turn moves `seq` along its command's sequence (R21). -/
theorem advance_seq (s : State) : (advance s).seq ∈ seqSuccessors s.seq := by
  cases hs : s.seq
  case idle => simp [advance_idle hs, hs, seqSuccessors]
  case txAsm =>
    rw [advance_txAsm hs]
    obtain ⟨-, h⟩ | ⟨-, -, h⟩ | ⟨p, -, -, -, h⟩ := sendAssemble_cases s
    all_goals simp [h, hs, seqSuccessors]
  case txWrite =>
    rw [advance_txWrite hs]
    obtain ⟨-, h⟩ | ⟨ok, -, -, h⟩ := sendReply_cases s
    all_goals simp [h, hs, seqSuccessors]
  case csRun =>
    rw [advance_csRun hs]
    obtain ⟨-, h⟩ | ⟨-, -, h⟩ | ⟨p, -, -, h⟩ := csumRun_cases s
    all_goals simp [h, hs, seqSuccessors]
  case rxHdr =>
    rw [advance_rxHdr hs]
    obtain ⟨-, h⟩ | ⟨b, q, -, h⟩ := recvHeader_cases s
    · simp [h, hs, seqSuccessors]
    · rw [h]
      split <;> simp [seqSuccessors]
  case rxValidate =>
    rw [advance_rxValidate hs]
    obtain ⟨-, h⟩ | ⟨-, h⟩ := recvValidate_cases s
    · simp [h, seqSuccessors]
    · rw [h]
      split <;> simp [seqSuccessors]
  case rxPay =>
    rw [advance_rxPay hs]
    obtain ⟨-, h⟩ | ⟨b, q, -, h⟩ := recvPayload_cases s
    · simp [h, hs, seqSuccessors]
    · rw [h]
      split <;> simp [seqSuccessors]
  case rxSum =>
    rw [advance_rxSum hs]
    obtain ⟨-, h⟩ | ⟨b, q, -, h⟩ := recvSum_cases s
    all_goals simp [h, hs, seqSuccessors]
  case rxVerify =>
    rw [advance_rxVerify hs]
    obtain ⟨sum, -, ⟨-, h⟩ | ⟨-, h⟩⟩ := recvVerify_cases s
    all_goals simp [h, seqSuccessors]
  case rxErrf =>
    rw [advance_rxErrf hs]
    obtain ⟨-, h⟩ | ⟨-, h⟩ := recvErrf_cases s
    all_goals simp [h, hs, seqSuccessors]

/-- A step of RECV takes the head byte of RXQ or none (R61). -/
theorem advance_recv_rxq {s : State} (h : s.inFlight = some .recv) :
    (advance s).rxq = s.rxq ∨ ∃ b, s.rxq = b :: (advance s).rxq := by
  cases hs : s.seq
  case idle | txAsm | txWrite | csRun =>
    rw [State.inFlight, hs] at h
    cases h
  case rxHdr =>
    rw [advance_rxHdr hs]
    obtain ⟨-, h⟩ | ⟨b, q, hq, h⟩ := recvHeader_cases s
    · exact .inl (congrArg State.rxq h)
    · exact .inr ⟨b, by rw [h, hq]⟩
  case rxValidate =>
    rw [advance_rxValidate hs]
    obtain ⟨-, h⟩ | ⟨-, h⟩ := recvValidate_cases s
    all_goals exact .inl (congrArg State.rxq h :)
  case rxPay =>
    rw [advance_rxPay hs]
    obtain ⟨-, h⟩ | ⟨b, q, hq, h⟩ := recvPayload_cases s
    · exact .inl (congrArg State.rxq h)
    · exact .inr ⟨b, by rw [h, hq]⟩
  case rxSum =>
    rw [advance_rxSum hs]
    obtain ⟨-, h⟩ | ⟨b, q, hq, h⟩ := recvSum_cases s
    · exact .inl (congrArg State.rxq h)
    · exact .inr ⟨b, by rw [h, hq]⟩
  case rxVerify =>
    rw [advance_rxVerify hs]
    obtain ⟨sum, -, ⟨-, h⟩ | ⟨-, h⟩⟩ := recvVerify_cases s
    all_goals exact .inl (congrArg State.rxq h :)
  case rxErrf =>
    rw [advance_rxErrf hs]
    obtain ⟨-, h⟩ | ⟨-, h⟩ := recvErrf_cases s
    all_goals exact .inl (congrArg State.rxq h :)

/-- The block's turn leaves RXQ in any command but RECV. -/
theorem advance_rxq (s : State) :
    (advance s).rxq = s.rxq ∨ (s.inFlight = some .recv ∧ ∃ b, s.rxq = b :: (advance s).rxq) := by
  cases hi : s.inFlight with
  | none => exact .inl (congrArg State.rxq (advance_idle (inFlight_eq_none.1 hi)))
  | some i =>
    have hrun := exec_inFlight hi
    cases i with
    | send n => exact .inl (congrArg State.rxq (sendFrame n s _ hrun).left :)
    | csum n => exact .inl (congrArg State.rxq (csumFrame n s _ hrun).left :)
    | recv => exact (advance_recv_rxq hi).imp_right fun hb => ⟨rfl, hb⟩

/-! ## FAULTS -/

/-- t has recorded every fault of s, and every agent that s has stopped is stopped in t. -/
def KeepsFaults (s t : State) : Prop :=
  (∀ r ∈ s.faults, r ∈ t.faults) ∧ (s.hostStopped = true → t.hostStopped = true) ∧
    (s.blockStopped = true → t.blockStopped = true)

theorem SameFaults.keeps {s t : State} (h : SameFaults s t) : KeepsFaults s t := by
  obtain ⟨hfaults, hhost, hblock⟩ := h
  exact ⟨fun _ hr => hfaults ▸ hr, fun hh => hhost.trans hh, fun hb => hblock.trans hb⟩

theorem hostFault_keepsFaults (r : ModelFault) (s : State) : KeepsFaults s (hostFault r s) :=
  ⟨fun q hq => (mem_addFault s.faults r q).2 (.inr hq), fun _ => rfl, id⟩

theorem blockFault_keepsFaults (r : ModelFault) (s : State) : KeepsFaults s (blockFault r s) :=
  ⟨fun q hq => (mem_addFault s.faults r q).2 (.inr hq), id, fun _ => rfl⟩

theorem acceptOf_sameFaults (i : Instr) (s : State) : SameFaults s (acceptOf i s) := by
  cases i <;> exact ⟨rfl, rfl, rfl⟩

theorem advance_keepsFaults (s : State) : KeepsFaults s (advance s) := by
  obtain h | ⟨-, -, -, h⟩ := advance_faults s
  · exact h.keeps
  · rw [h]
    exact blockFault_keepsFaults _ s

theorem Effect.keepsFaults {s t : State} {m : Option Move} (e : Effect s m t) : KeepsFaults s t := by
  cases e with
  | writeFault _ _ _ r | readFault _ _ r => exact hostFault_keepsFaults r s
  | accept _ i => exact (acceptOf_sameFaults i s).keeps
  | advance => exact advance_keepsFaults s
  | _ => exact ⟨fun _ hr => hr, id, id⟩

/-- Settles O46: a fault adds a reason and stops an agent; every other effect, a reset included, keeps both. -/
theorem faultsAreNeverRemoved : Obligations.FaultsAreNeverRemoved :=
  fun _ _ h => (step_effect h).keepsFaults

/-! ## TXP and the streams -/

theorem acceptOf_keeps (i : Instr) (s : State) :
    (acceptOf i s).txp = s.txp ∧ (acceptOf i s).txs = s.txs ∧ (acceptOf i s).abandoned = s.abandoned ∧
      (acceptOf i s).rxq = s.rxq := by
  cases i <;> exact ⟨rfl, rfl, rfl, rfl⟩

theorem Effect.txp_eq {s t : State} {m : Option Move} (e : Effect s m t) :
    t.txp = s.txp ∨ m = some .reset ∨ ∃ i v, i < 65534 ∧ m = some (.hostWrite (txpAddr s.params i) 1 v) ∧
      s.hostStopped = false ∧ s.seq = .idle := by
  cases e with
  | accept _ i => exact .inl (acceptOf_keeps i s).left
  | txp i v hs hh hi => exact .inr (.inr ⟨i, v, hi, rfl, hh, hs⟩)
  | reset => exact .inr (.inl rfl)
  | advance => exact .inl (advance_keeps s).left
  | _ => exact .inl rfl

/-- TXS in every effect: as before, or with the first bytes of a request at its end, in a reply or a settlement. -/
theorem Effect.txs_eq {s t : State} {m : Option Move} (e : Effect s m t) :
    t.txs = s.txs ∨ (∃ d, t.txs = s.txs ++ d) ∧
      ∃ n, m = some (.replyOk n) ∨ m = some (.replyErr n) ∨ m = some (.settleAbandoned n) := by
  cases e with
  | accept _ i =>
    obtain ⟨-, htxs, -⟩ := acceptOf_keeps i s
    exact .inl htxs
  | ok k b => exact .inr ⟨⟨b.take k, rfl⟩, k, .inl rfl⟩
  | err p b => exact .inr ⟨⟨b.take p, rfl⟩, p, .inr (.inl rfl)⟩
  | settle p b => exact .inr ⟨⟨b.take p, rfl⟩, p, .inr (.inr rfl)⟩
  | advance =>
    obtain ⟨-, htxs, -⟩ := advance_keeps s
    exact .inl htxs
  | _ => exact .inl rfl

theorem Effect.rxq_eq {s t : State} {m : Option Move} (e : Effect s m t) :
    t.rxq = s.rxq ∨ (∃ bs, m = some (.peerAppend bs) ∧ t.rxq = s.rxq ++ bs) ∨
      (∃ n, m = some (.hostDrop n) ∧ s.seq = .idle ∧ t.rxq = s.rxq.drop n) ∨
      ((m = none ∨ m = some .block) ∧ s.inFlight = some .recv ∧ ∃ b, s.rxq = b :: t.rxq) := by
  cases e with
  | accept _ i =>
    obtain ⟨-, -, -, hrxq⟩ := acceptOf_keeps i s
    exact .inl hrxq
  | drop n hs => exact .inr (.inr (.inl ⟨n, rfl, hs, rfl⟩))
  | append bs => exact .inr (.inl ⟨bs, rfl, rfl⟩)
  | advance _ hm =>
    obtain h | ⟨hi, hb⟩ := advance_rxq s
    · exact .inl h
    · exact .inr (.inr (.inr ⟨hm, hi, hb⟩))
  | _ => exact .inl rfl

/-- Settles O50: each effect of a step either leaves the buffer or the stream or is one of the moves that the rules name. -/
theorem streamsAndTxpChangeOnlyAsTheRulesSay : Obligations.StreamsAndTxpChangeOnlyAsTheRulesSay := by
  intro s t h
  have e := step_effect h
  refine ⟨fun hne => e.txp_eq.resolve_left hne, ?_, fun hne => ?_, fun hne => e.rxq_eq.resolve_left hne⟩
  · obtain heq | ⟨hd, -⟩ := e.txs_eq
    · exact ⟨[], heq.trans (List.append_nil s.txs).symm⟩
    · exact hd
  · obtain ⟨-, hm⟩ := e.txs_eq.resolve_left hne
    exact hm

/-! ## The abandoned requests -/

/-- A reply that delivers a byte drops the abandoned requests, and one that delivers none keeps them (R64). -/
theorem answer_abandoned (r : Reply) (count : Nat) (b : List Byte) (s : State) :
    (answer r count b s).abandoned = if min count b.length = 0 then s.abandoned else [] := by
  have hempty : (b.take count).isEmpty = true ↔ min count b.length = 0 := by
    rw [List.isEmpty_iff, ← List.length_eq_zero_iff, List.length_take]
  change (if (b.take count).isEmpty = true then s.abandoned else []) = _
  simp only [hempty]

theorem Effect.abandoned_eq {s t : State} {m : Option Move} (e : Effect s m t) :
    t.abandoned = s.abandoned ∨ m = some .reset ∨
      ∃ n, m = some (.replyOk n) ∨ m = some (.replyErr n) ∨ m = some (.settleAbandoned n) := by
  cases e with
  | accept _ i =>
    obtain ⟨-, -, habandoned, -⟩ := acceptOf_keeps i s
    exact .inl habandoned
  | ok k => exact .inr (.inr ⟨k, .inl rfl⟩)
  | err p => exact .inr (.inr ⟨p, .inr (.inl rfl)⟩)
  | settle p => exact .inr (.inr ⟨p, .inr (.inr rfl)⟩)
  | reset => exact .inr (.inl rfl)
  | advance =>
    obtain ⟨-, -, habandoned, -⟩ := advance_keeps s
    exact .inl habandoned
  | _ => exact .inl rfl

/-- Settles O55: both replies are `answer`, and of the other effects only a settlement and a reset touch what is
abandoned. -/
theorem laterRequestsSilenceAbandonedOnes : Obligations.LaterRequestsSilenceAbandonedOnes := by
  refine ⟨fun s b rest hp => ⟨fun k hm => ⟨_, step_replyOk hp hm, answer_abandoned _ _ _ _⟩, fun p hle hm => ?_⟩,
    fun s t h hne => (step_effect h).abandoned_eq.resolve_left hne⟩
  refine ⟨_, step_replyErr hp hle hm, ?_⟩
  rw [answer_abandoned, Nat.min_eq_left hle]

/-! ## The sequencer -/

/-- No move but a command's accept, the block's turn and a reset writes `seq`. -/
theorem Effect.seq_mem {s t : State} {m : Option Move} (e : Effect s m t) (hm : m ≠ some .reset) :
    t.seq ∈ seqSuccessors s.seq := by
  have hstay : s.seq ∈ seqSuccessors s.seq := by cases s.seq <;> decide
  cases e with
  | accept _ i hs =>
    rw [hs]
    cases i <;> simp [acceptOf, seqSuccessors]
  | reset => exact absurd rfl hm
  | advance => exact advance_seq s
  | _ => exact hstay

/-- Settles O51: an accept goes from IDLE to a first state, and the block's turn is `advance_seq`. -/
theorem sequencerMovesForward : Obligations.SequencerMovesForward :=
  fun _ _ h hm => (step_effect h).seq_mem hm

end Sys2Proof.Machine
end

section
/-! PROOFS. The usage rules: a host that keeps them meets no model fault. -/

namespace Sys2Proof.Machine

/-! ## The accesses that the rules allow -/

theorem readPlace_rxp_byte (i : Nat) (s : State) : readPlace (.rxp i) 1 s = readRxp i s := by
  rw [readPlace, if_pos rfl]

/-- An allowed read answers with some value, and changes nothing but what the host then holds and the count of draws. -/
theorem readPlace_allowed {p : Place} {n : Nat} {s : State} (h : readAllowed p n s) :
    ∃ v d, readPlace p n s = .next { s with readData := v, draws := d } := by
  cases p with
  | unmapped => exact h.elim
  | txp i =>
    obtain ⟨rfl, hs, hwritten⟩ := h
    obtain ⟨b, hb⟩ := Option.isSome_iff_exists.1 hwritten
    exact ⟨_, s.draws, (readPlace_txp_byte i s).trans (readTxp_written hs hb)⟩
  | rxp i =>
    obtain ⟨rfl, hs, hpresent, hi⟩ := h
    rw [rxLength_eq] at hi
    exact ⟨_, s.draws, (readPlace_rxp_byte i s).trans (readRxp_live hs ⟨hpresent, hi⟩)⟩
  | reg r =>
    cases r with
    | cmd => exact h.elim
    | status =>
      subst h
      by_cases hs : s.seq = .idle
      · exact ⟨_, s.draws, readStatus_idle hs⟩
      · exact ⟨_, _, readStatus_busy hs⟩
    | rxLen | rxInfo | txWritten =>
      obtain ⟨rfl, hs⟩ := h
      exact ⟨_, s.draws, readResult_idle hs _⟩
    | lastSum =>
      obtain ⟨rfl, hs, hv⟩ := h
      exact ⟨_, s.draws, readLastSum_valid hs hv⟩

/-- No fault is on its way where the block is not about to read TXP. -/
theorem faultFree_of_sameFaults {s t : State} (h : s.FaultFree) (hsame : SameFaults s t)
    (hasm : t.seq ≠ .txAsm) (hrun : t.seq ≠ .csRun) : t.FaultFree := by
  obtain ⟨hfaults, hhost, hblock, -⟩ := h
  obtain ⟨hf, hh, hb⟩ := hsame
  exact ⟨hf.trans hfaults, hh.trans hhost, hb.trans hblock, fun hseq => (hseq.elim hasm hrun).elim⟩

/-- A command whose bytes have been written is accepted with no fault on its way (R243). -/
theorem acceptOf_faultFree {s : State} {w : Word} {i : Instr} (h : s.FaultFree) (hd : decode w = .command i)
    (hready : payloadReady w s) : (acceptOf i s).FaultFree := by
  obtain ⟨hfaults, hhost, hblock, -⟩ := id h
  rw [payloadReady, hd] at hready
  cases i with
  | send n | csum n => exact ⟨hfaults, hhost, hblock, fun _ => hready⟩
  | recv => exact faultFree_of_sameFaults h ⟨rfl, rfl, rfl⟩ nofun nofun

/-- An allowed write, of a word to CMD or of a byte to TXP, is taken by an idle block. -/
theorem writePlace_faultFree {p : Place} {n : Nat} {w : Word} {s t : State} (h : s.FaultFree)
    (hallowed : writeAllowed p n w s) (hrun : writePlace p n w s = .next t) : t.FaultFree := by
  obtain ⟨-, -, hblock, -⟩ := id h
  cases p with
  | rxp | unmapped => exact hallowed.elim
  | txp i =>
    obtain ⟨rfl, hs⟩ := hallowed
    cases ((writePlace_txp_byte i w s).trans (writeTxp_idle hs i _)).symm.trans hrun
    exact faultFree_of_sameFaults h ⟨rfl, rfl, rfl⟩ (by simp [hs]) (by simp [hs])
  | reg r =>
    cases r with
    | status | rxLen | rxInfo | lastSum | txWritten => exact hallowed.elim
    | cmd =>
      obtain ⟨rfl, hs, hready⟩ := hallowed
      rw [writePlace, if_pos rfl] at hrun
      cases hd : decode w with
      | command i =>
        cases (writeCmd_command hs hblock hd).symm.trans hrun
        exact acceptOf_faultFree h hd hready
      | illegal why =>
        cases (writeCmd_illegal hs hblock hd).symm.trans hrun
        exact faultFree_of_sameFaults h ⟨rfl, rfl, rfl⟩ (by simp [hs]) (by simp [hs])

/-! ## The block's turn -/

/-- A command stands in TX_ASM or CS_RUN only until its next step: no other state of a sequence leads there. -/
theorem seq_eq_of_mem_successors {q r : Seq} (hq : q ≠ .idle) (hr : r = .txAsm ∨ r = .csRun)
    (h : r ∈ seqSuccessors q) : q = r := by
  obtain rfl | rfl := hr
  all_goals cases q <;> simp_all [seqSuccessors]

theorem advance_faultFree {s : State} (h : s.FaultFree) : (advance s).FaultFree := by
  obtain ⟨hfaults, hhost, hblock, hbytes⟩ := id h
  obtain ⟨hf, hh, hb⟩ | ⟨hseq, hl, ⟨i, hi, hnone⟩, -⟩ := advance_faults s
  · refine ⟨hf.trans hfaults, hh.trans hhost, hb.trans hblock, fun hseq => ?_⟩
    obtain ⟨htxp, -, -, hlen⟩ := advance_keeps s
    rw [htxp, hlen]
    by_cases hs : s.seq = .idle
    · rw [advance_idle hs, hs] at hseq
      exact hseq.elim nofun nofun
    · refine hbytes ?_
      rwa [seq_eq_of_mem_successors hs hseq (advance_seq s)]
  · have hsome := hbytes hseq hl i hi
    rw [hnone] at hsome
    cases hsome

/-! ## Every move -/

theorem takeMove_faultFree {s t : State} {m : Move} (h : s.FaultFree) (hkeeps : keepsUsageRules m s)
    (hrun : takeMove m s = .next t) : t.FaultFree := by
  obtain ⟨hfaults, hhost, hblock, -⟩ := id h
  cases m with
  | hostWrite addr n w =>
    rw [takeMove, byHost_running hhost, hostWrite] at hrun
    cases ho : windowOffset s.params addr with
    | none =>
      rw [ho] at hrun
      cases hrun
    | some off =>
      rw [ho] at hrun
      exact writePlace_faultFree h (hkeeps off ho) hrun
  | hostRead addr n =>
    rw [takeMove, byHost_running hhost, hostRead] at hrun
    cases ho : windowOffset s.params addr with
    | none =>
      rw [ho] at hrun
      cases hrun
    | some off =>
      rw [ho] at hrun
      obtain ⟨v, d, hread⟩ := readPlace_allowed (hkeeps off ho)
      cases hread.symm.trans hrun
      exact h
  | reset =>
    cases hrun
    exact ⟨hfaults, hhost, hblock, nofun⟩
  | block =>
    cases (blockTurn_advance hblock).symm.trans hrun
    exact advance_faultFree h
  | hostDrop | peerAppend | replyOk | replyErr | settleAbandoned =>
    cases takeMove_effect hrun with
    | advance _ hm => simp at hm
    | _ => exact h

/-- Settles O52: with no move listed it is the block's turn, and a listed move that keeps the rules is
`takeMove_faultFree`. -/
theorem ruleKeepingHostMeetsNoFault : Obligations.RuleKeepingHostMeetsNoFault := by
  intro s t h hkeeps hstep
  cases hm : s.moves with
  | nil =>
    obtain ⟨-, -, hblock, -⟩ := id h
    cases (step_alone hblock hm).symm.trans hstep
    exact advance_faultFree h
  | cons m rest =>
    rw [step_cons hm] at hstep
    exact takeMove_faultFree (s := { s with moves := rest }) h (hkeeps m rest hm) hstep

end Sys2Proof.Machine
end

section
/-! PROOFS. What the stopped agents and the moves to come do not touch: the block's turn commutes with any change of the
host's stop and of the moves, and every other agent's move with any change of the block's stop. -/

namespace Sys2Proof.Machine

/-- s with the stops of the two agents and the moves to come mapped. -/
def State.mapControl (fh fb : Bool → Bool) (fm : List Move → List Move) (s : State) : State :=
  { s with hostStopped := fh s.hostStopped, blockStopped := fb s.blockStopped, moves := fm s.moves }

section
variable (fh fb : Bool → Bool) (fm : List Move → List Move) (s : State)

/-! ## The block's turn -/

@[simp] theorem operandPayload_mapControl : operandPayload (s.mapControl fh fb fm) = operandPayload s := rfl

theorem sendAssemble_mapControl :
    sendAssemble (s.mapControl fh id fm) = (sendAssemble s).mapControl fh id fm := by
  refine ite_eq_apply_ite rfl ?_
  rw [operandPayload_mapControl]
  cases operandPayload s <;> rfl

theorem csumRun_mapControl : csumRun (s.mapControl fh id fm) = (csumRun s).mapControl fh id fm := by
  refine ite_eq_apply_ite rfl ?_
  rw [operandPayload_mapControl]
  cases operandPayload s <;> rfl

theorem recvHeader_mapControl : recvHeader (s.mapControl fh id fm) = (recvHeader s).mapControl fh id fm := by
  obtain ⟨hq, h⟩ | ⟨c, q, hq, h⟩ := recvHeader_cases s
  · rw [h]
    exact recvHeader_waiting hq
  · rw [h]
    exact recvHeader_byte (s := s.mapControl fh id fm) hq

theorem recvPayload_mapControl : recvPayload (s.mapControl fh id fm) = (recvPayload s).mapControl fh id fm := by
  obtain ⟨hq, h⟩ | ⟨c, q, hq, h⟩ := recvPayload_cases s
  · rw [h]
    exact recvPayload_waiting hq
  · rw [h]
    exact recvPayload_byte (s := s.mapControl fh id fm) hq

theorem recvSum_mapControl : recvSum (s.mapControl fh id fm) = (recvSum s).mapControl fh id fm := by
  obtain ⟨hq, h⟩ | ⟨c, q, hq, h⟩ := recvSum_cases s
  · rw [h]
    exact recvSum_waiting hq
  · rw [h]
    exact recvSum_byte (s := s.mapControl fh id fm) hq

/-- No step of a command reads the host's stop or the moves to come, and none writes them. -/
theorem advance_mapControl : advance (s.mapControl fh id fm) = (advance s).mapControl fh id fm := by
  have hseq : (s.mapControl fh id fm).seq = s.seq := rfl
  rw [advance, advance, hseq]
  cases s.seq with
  | idle => rfl
  | txAsm => exact sendAssemble_mapControl fh fm s
  | csRun => exact csumRun_mapControl fh fm s
  | rxHdr => exact recvHeader_mapControl fh fm s
  | rxPay => exact recvPayload_mapControl fh fm s
  | rxSum => exact recvSum_mapControl fh fm s
  | txWrite | rxValidate | rxVerify | rxErrf => exact ite_eq_apply_ite rfl rfl

theorem blockTurn_mapControl :
    blockTurn (s.mapControl fh id fm) = mapNext (State.mapControl fh id fm) (blockTurn s) := by
  rw [blockTurn_eq, blockTurn_eq, advance_mapControl]
  exact ite_eq_apply_ite rfl rfl

/-! ## The transport, the peer and the reset input -/

theorem replyOk_mapControl (k : Nat) :
    replyOk k (s.mapControl fh fb fm) = mapNext (State.mapControl fh fb fm) (replyOk k s) := by
  have hp : (s.mapControl fh fb fm).pending = s.pending := rfl
  rw [replyOk, replyOk, hp]
  cases s.pending <;> rfl

theorem replyErr_mapControl (p : Nat) :
    replyErr p (s.mapControl fh fb fm) = mapNext (State.mapControl fh fb fm) (replyErr p s) := by
  have hp : (s.mapControl fh fb fm).pending = s.pending := rfl
  rw [replyErr, replyErr, hp]
  cases s.pending with
  | none => rfl
  | some request => exact ite_eq_apply_ite rfl rfl

theorem settleAbandoned_mapControl (p : Nat) :
    settleAbandoned p (s.mapControl fh fb fm) = mapNext (State.mapControl fh fb fm) (settleAbandoned p s) := by
  have ha : (s.mapControl fh fb fm).abandoned = s.abandoned := rfl
  rw [settleAbandoned, settleAbandoned, ha]
  cases s.abandoned with
  | nil => rfl
  | cons request rest => exact ite_eq_apply_ite rfl rfl

/-- A move of an agent that is neither the host nor the block reads no stop. -/
theorem takeMove_mapControl {m : Move} (hhost : m.ofHost = false) (hblock : m ≠ .block) :
    takeMove m (s.mapControl fh fb fm) = mapNext (State.mapControl fh fb fm) (takeMove m s) := by
  cases m with
  | hostWrite | hostRead | hostDrop => cases hhost
  | block => exact absurd rfl hblock
  | peerAppend | reset => rfl
  | replyOk k => exact replyOk_mapControl fh fb fm s k
  | replyErr p => exact replyErr_mapControl fh fb fm s p
  | settleAbandoned p => exact settleAbandoned_mapControl fh fb fm s p

/-! ## The host -/

theorem writeTxp_mapControl (i : Nat) (b : Byte) :
    writeTxp i b (s.mapControl id fb fm) = mapNext (State.mapControl id fb fm) (writeTxp i b s) :=
  ite_eq_apply_ite rfl rfl

/-- Only a word that an idle block would take depends on the block's stop. -/
theorem writePlace_mapControl {p : Place} {n : Nat} (h : p = .reg .cmd → n = 4 → s.seq ≠ .idle) (v : Word) :
    writePlace p n v (s.mapControl id fb fm) = mapNext (State.mapControl id fb fm) (writePlace p n v s) := by
  cases p with
  | reg r =>
    cases r with
    | cmd =>
      by_cases hn : n = 4
      · have hs := h rfl hn
        rw [writePlace, if_pos hn, writePlace, if_pos hn, writeCmd_busy hs]
        exact writeCmd_busy (s := s.mapControl id fb fm) hs v
      · rw [writePlace_reg_size hn, writePlace_reg_size hn]
        rfl
    | status | rxLen | rxInfo | lastSum | txWritten => rfl
  | txp i => exact ite_eq_apply_ite (writeTxp_mapControl fb fm s i _) rfl
  | rxp | unmapped => rfl

theorem readTxp_mapControl (i : Nat) :
    readTxp i (s.mapControl id fb fm) = mapNext (State.mapControl id fb fm) (readTxp i s) := by
  have htxp : (s.mapControl id fb fm).txp = s.txp := rfl
  refine ite_eq_apply_ite rfl ?_
  rw [htxp]
  cases Memory.read s.txp i <;> rfl

theorem readPlace_mapControl (p : Place) (n : Nat) :
    readPlace p n (s.mapControl id fb fm) = mapNext (State.mapControl id fb fm) (readPlace p n s) := by
  cases p with
  | reg r =>
    cases r with
    | cmd => rfl
    | status | rxLen | rxInfo | txWritten => exact ite_eq_apply_ite (ite_eq_apply_ite rfl rfl) rfl
    | lastSum => exact ite_eq_apply_ite (ite_eq_apply_ite rfl (ite_eq_apply_ite rfl rfl)) rfl
  | txp i => exact ite_eq_apply_ite (readTxp_mapControl fb fm s i) rfl
  | rxp i => exact ite_eq_apply_ite (ite_eq_apply_ite rfl (ite_eq_apply_ite rfl rfl)) rfl
  | unmapped => rfl

theorem hostWrite_mapControl {addr n : Nat} (h : addr = regAddr s.params .cmd → n = 4 → s.seq ≠ .idle) (v : Word) :
    hostWrite addr n v (s.mapControl id fb fm) = mapNext (State.mapControl id fb fm) (hostWrite addr n v s) := by
  have hparams : (s.mapControl id fb fm).params = s.params := rfl
  rw [hostWrite, hostWrite, hparams]
  cases ho : windowOffset s.params addr with
  | none => rfl
  | some off =>
    refine writePlace_mapControl fb fm s (fun hp hn => h ?_ hn) v
    obtain ⟨rfl, -⟩ := windowOffset_eq_some.1 ho
    rw [placeOf_eq_reg hp, regAddr]

theorem hostRead_mapControl (addr n : Nat) :
    hostRead addr n (s.mapControl id fb fm) = mapNext (State.mapControl id fb fm) (hostRead addr n s) := by
  have hparams : (s.mapControl id fb fm).params = s.params := rfl
  rw [hostRead, hostRead, hparams]
  cases windowOffset s.params addr with
  | none => rfl
  | some off => exact readPlace_mapControl fb fm s (placeOf off) n

/-- A move of the host is withheld where it has stopped, before and after the change. -/
theorem takeMove_host_mapControl {m : Move} (hhost : m.ofHost = true)
    (hcmd : s.seq = .idle → ∀ w, m ≠ .hostWrite (regAddr s.params .cmd) 4 w) :
    takeMove m (s.mapControl id fb fm) = mapNext (State.mapControl id fb fm) (takeMove m s) := by
  cases m with
  | hostWrite addr n v =>
    refine ite_eq_apply_ite rfl (hostWrite_mapControl fb fm s (fun ha hn hs => ?_) v)
    subst ha hn
    exact hcmd hs v rfl
  | hostRead addr n => exact ite_eq_apply_ite rfl (hostRead_mapControl fb fm s addr n)
  | hostDrop n => exact ite_eq_apply_ite rfl (ite_eq_apply_ite rfl rfl)
  | peerAppend | replyOk | replyErr | settleAbandoned | reset | block => cases hhost

end

/-- The host's stop makes no difference to another's move, nor to the block's turn. -/
theorem step_hostStopped (s : State) (b : Bool) (h : ∀ m, s.moves.head? = some m → m.ofHost = false) :
    step { s with hostStopped := b } = mapNext (fun t => { t with hostStopped := b }) (step s) := by
  change step (s.mapControl (fun _ => b) id id) = mapNext (State.mapControl (fun _ => b) id id) (step s)
  cases hm : s.moves with
  | nil =>
    rw [step_nil hm, step_nil (s := s.mapControl (fun _ => b) id id) hm]
    exact blockTurn_mapControl (fun _ => b) id s
  | cons m rest =>
    rw [step_cons hm, step_cons (s := s.mapControl (fun _ => b) id id) hm]
    by_cases hblock : m = .block
    · subst hblock
      exact blockTurn_mapControl (fun _ => b) id { s with moves := rest }
    · have hhost : m.ofHost = false := h m (by rw [hm]; rfl)
      exact takeMove_mapControl (fun _ => b) id id { s with moves := rest } hhost hblock

/-- The block's stop makes no difference to another's move, but for a command word that an idle block would take. -/
theorem step_blockStopped (s : State) (b : Bool) (hnone : s.moves.head? ≠ none) (hblock : s.moves.head? ≠ some .block)
    (hcmd : s.seq = .idle → ∀ w, s.moves.head? ≠ some (.hostWrite (regAddr s.params .cmd) 4 w)) :
    step { s with blockStopped := b } = mapNext (fun t => { t with blockStopped := b }) (step s) := by
  change step (s.mapControl id (fun _ => b) id) = mapNext (State.mapControl id (fun _ => b) id) (step s)
  cases hm : s.moves with
  | nil => simp [hm] at hnone
  | cons m rest =>
    simp only [hm, List.head?_cons, ne_eq, Option.some.injEq] at hblock hcmd
    rw [step_cons hm, step_cons (s := s.mapControl id (fun _ => b) id) hm]
    cases hhost : m.ofHost with
    | true => exact takeMove_host_mapControl (fun _ => b) id { s with moves := rest } hhost hcmd
    | false => exact takeMove_mapControl id (fun _ => b) id { s with moves := rest } hhost hblock

/-- Settles O54: each of the two stops is a control that the other agents' moves do not read. -/
theorem stoppedAgentsDoNotHinderTheOthers : Obligations.StoppedAgentsDoNotHinderTheOthers :=
  ⟨step_hostStopped, step_blockStopped⟩

end Sys2Proof.Machine
end

section
/-! PROOFS. When the machine stops: the moves that answer a fault, said once, and that every other step answers a next
state. -/

namespace Sys2Proof.Machine

/-- The moves that stop the machine, in the state they are taken in, and with which fault. -/
inductive Stop (s : State) : Move → Fault → Prop where
  /-- A write outside the window. -/
  | write (addr n : Nat) (v : Word) : s.hostStopped = false → windowOffset s.params addr = none →
      Stop s (.hostWrite addr n v) .outsideWindow
  /-- A read outside the window. -/
  | read (addr n : Nat) : s.hostStopped = false → windowOffset s.params addr = none →
      Stop s (.hostRead addr n) .outsideWindow
  /-- A drop while BUSY is 1 or of more bytes than RXQ holds. -/
  | drop (n : Nat) : s.hostStopped = false → s.seq ≠ .idle ∨ s.rxq.length < n → Stop s (.hostDrop n) .noSuchMove
  /-- A reply OK with no request outstanding. -/
  | ok (k : Nat) : s.pending = none → Stop s (.replyOk k) .noSuchMove
  /-- A reply ERR with no request outstanding, or with one shorter than what it delivers. -/
  | err (p : Nat) : (∀ b, s.pending = some b → b.length < p) → Stop s (.replyErr p) .noSuchMove
  /-- A settlement with nothing abandoned, or with an oldest request shorter than what it delivers. -/
  | settle (p : Nat) : (∀ b older, s.abandoned = b :: older → b.length < p) → Stop s (.settleAbandoned p) .noSuchMove

theorem Stop.takeMove_eq {s : State} {m : Move} {f : Fault} (h : Stop s m f) : takeMove m s = .fault f := by
  cases h with
  | write addr n v hh ho => rw [takeMove, byHost_running hh, hostWrite, ho]
  | read addr n hh ho => rw [takeMove, byHost_running hh, hostRead, ho]
  | drop n hh hn =>
    rw [takeMove, byHost_running hh]
    exact if_pos (hn.imp_left busy_eq_true.2)
  | ok k hp => rw [takeMove, replyOk, hp]
  | err p hp =>
    rw [takeMove, replyErr]
    cases hb : s.pending with
    | none => rfl
    | some b => exact if_pos (hp b hb)
  | settle p ha =>
    rw [takeMove, settleAbandoned]
    cases hb : s.abandoned with
    | nil => rfl
    | cons b older => exact if_pos (ha b older hb)

/-! ## Every other move answers a next state -/

theorem writeCmd_next (w : Word) (s : State) : ∃ t, writeCmd w s = .next t := by
  by_cases hs : s.seq = .idle
  · cases hb : s.blockStopped with
    | true => exact ⟨_, writeCmd_stopped hs hb w⟩
    | false =>
      cases hd : decode w with
      | command i => exact ⟨_, writeCmd_command hs hb hd⟩
      | illegal why => exact ⟨_, writeCmd_illegal hs hb hd⟩
  · exact ⟨_, writeCmd_busy hs w⟩

theorem writePlace_next (p : Place) (n : Nat) (v : Word) (s : State) : ∃ t, writePlace p n v s = .next t := by
  cases p with
  | reg r =>
    by_cases hr : r = .cmd
    · subst hr
      by_cases hn : n = 4
      · rw [writePlace, if_pos hn]
        exact writeCmd_next v s
      · exact ⟨_, writePlace_reg_size hn .cmd v s⟩
    · exact ⟨_, writePlace_readOnlyReg hr n v s⟩
  | txp i =>
    by_cases hn : n = 1
    · subst hn
      rw [writePlace_txp_byte]
      by_cases hs : s.seq = .idle
      · exact ⟨_, writeTxp_idle hs i _⟩
      · exact ⟨_, writeTxp_busy hs i _⟩
    · exact ⟨_, writePlace_txp_size hn i v s⟩
  | rxp i => exact ⟨_, writePlace_rxp i n v s⟩
  | unmapped => exact ⟨_, writePlace_unmapped n v s⟩

/-- A whole read of a register answers, or is a model fault of the host, in any state. -/
theorem readReg_next (r : Reg) (s : State) : ∃ t, readPlace (.reg r) 4 s = .next t := by
  by_cases hs : s.seq = .idle
  · cases r with
    | cmd => exact ⟨_, readPlace_cmd 4 s⟩
    | status => exact ⟨_, readStatus_idle hs⟩
    | rxLen | rxInfo | txWritten => exact ⟨_, readResult_idle hs _⟩
    | lastSum =>
      cases hv : s.sumValid with
      | true => exact ⟨_, readLastSum_valid hs hv⟩
      | false => exact ⟨_, readLastSum_unwritten hs hv⟩
  · cases r with
    | cmd => exact ⟨_, readPlace_cmd 4 s⟩
    | status => exact ⟨_, readStatus_busy hs⟩
    | rxLen | rxInfo | txWritten => exact ⟨_, readResult_busy hs _⟩
    | lastSum => exact ⟨_, readLastSum_busy hs⟩

theorem readTxp_next (i : Nat) (s : State) : ∃ t, readTxp i s = .next t := by
  by_cases hs : s.seq = .idle
  · cases hb : Memory.read s.txp i with
    | none => exact ⟨_, readTxp_unwritten hs hb⟩
    | some b => exact ⟨_, readTxp_written hs hb⟩
  · exact ⟨_, readTxp_busy hs i⟩

theorem readRxp_next (i : Nat) (s : State) : ∃ t, readRxp i s = .next t := by
  by_cases hs : s.seq = .idle
  · by_cases hlive : s.rxPresent = true ∧ i < s.rxLen.toNat % 65536
    · exact ⟨_, readRxp_live hs hlive⟩
    · exact ⟨_, readRxp_outside hs hlive⟩
  · exact ⟨_, readRxp_busy hs i⟩

theorem readPlace_next (p : Place) (n : Nat) (s : State) : ∃ t, readPlace p n s = .next t := by
  cases p with
  | reg r =>
    by_cases hn : n = 4
    · subst hn
      exact readReg_next r s
    · exact ⟨_, readPlace_reg_size hn r s⟩
  | txp i =>
    by_cases hn : n = 1
    · subst hn
      rw [readPlace_txp_byte]
      exact readTxp_next i s
    · exact ⟨_, readPlace_txp_size hn i s⟩
  | rxp i =>
    by_cases hn : n = 1
    · subst hn
      rw [readPlace_rxp_byte]
      exact readRxp_next i s
    · exact ⟨_, readPlace_rxp_size hn i s⟩
  | unmapped => exact ⟨_, readPlace_unmapped n s⟩

theorem blockTurn_next (s : State) : ∃ t, blockTurn s = .next t := by
  cases hb : s.blockStopped with
  | true => exact ⟨_, blockTurn_stopped hb⟩
  | false => exact ⟨_, blockTurn_advance hb⟩

/-- A running host's move answers a next state or stops the machine. -/
theorem takeMove_host_next_or_stop {s : State} {m : Move} (hhost : m.ofHost = true) (hh : s.hostStopped = false) :
    (∃ t, takeMove m s = .next t) ∨ ∃ f, Stop s m f := by
  cases m with
  | hostWrite addr n v =>
    cases ho : windowOffset s.params addr with
    | none => exact .inr ⟨_, .write addr n v hh ho⟩
    | some off =>
      rw [takeMove, byHost_running hh, hostWrite, ho]
      exact .inl (writePlace_next (placeOf off) n v s)
  | hostRead addr n =>
    cases ho : windowOffset s.params addr with
    | none => exact .inr ⟨_, .read addr n hh ho⟩
    | some off =>
      rw [takeMove, byHost_running hh, hostRead, ho]
      exact .inl (readPlace_next (placeOf off) n s)
  | hostDrop n =>
    by_cases hn : s.seq ≠ .idle ∨ s.rxq.length < n
    · exact .inr ⟨_, .drop n hh hn⟩
    · obtain ⟨hs, hl⟩ := not_or.1 hn
      rw [takeMove, byHost_running hh]
      exact .inl ⟨_, hostDrop_idle (not_not.1 hs) (Nat.le_of_not_lt hl)⟩
  | peerAppend | replyOk | replyErr | settleAbandoned | reset | block => cases hhost

/-- Every move answers a next state or stops the machine. -/
theorem takeMove_next_or_stop (m : Move) (s : State) : (∃ t, takeMove m s = .next t) ∨ ∃ f, Stop s m f := by
  cases m with
  | hostWrite | hostRead | hostDrop =>
    cases hh : s.hostStopped with
    | true => exact .inl ⟨s, takeMove_stopped hh rfl⟩
    | false => exact takeMove_host_next_or_stop rfl hh
  | peerAppend | reset => exact .inl ⟨_, rfl⟩
  | block => exact .inl (blockTurn_next s)
  | replyOk k =>
    cases hp : s.pending with
    | none => exact .inr ⟨_, .ok k hp⟩
    | some b => exact .inl ⟨_, by rw [takeMove, replyOk, hp]⟩
  | replyErr p =>
    by_cases hp : ∀ b, s.pending = some b → b.length < p
    · exact .inr ⟨_, .err p hp⟩
    · push Not at hp
      obtain ⟨b, hb, hle⟩ := hp
      refine .inl ⟨answer .err p b s, ?_⟩
      rw [takeMove, replyErr, hb]
      exact if_neg (Nat.not_lt.2 hle)
  | settleAbandoned p =>
    by_cases ha : ∀ b older, s.abandoned = b :: older → b.length < p
    · exact .inr ⟨_, .settle p ha⟩
    · push Not at ha
      obtain ⟨b, older, hb, hle⟩ := ha
      exact .inl ⟨_, settleAbandoned_of_le hb hle⟩

/-! ## The step -/

theorem step_of_stop {s : State} {m : Move} {f : Fault} (hm : s.moves.head? = some m) (h : Stop (popped s) m f) :
    step s = .fault f := by
  obtain ⟨rest, hrest⟩ := List.head?_eq_some_iff.1 hm
  rw [step_cons hrest]
  have hpop : popped s = { s with moves := rest } := by rw [popped, hrest, List.tail_cons]
  rw [← hpop]
  exact h.takeMove_eq

/-- Every step answers a next state, or its move is one that stops the machine. -/
theorem step_next_or_stop (s : State) :
    (∃ t, step s = .next t) ∨ ∃ m f, s.moves.head? = some m ∧ Stop (popped s) m f := by
  cases hm : s.moves with
  | nil =>
    rw [step_nil hm]
    exact .inl (blockTurn_next s)
  | cons m rest =>
    rw [step_cons hm]
    have hpop : popped s = { s with moves := rest } := by rw [popped, hm, List.tail_cons]
    rw [hpop]
    exact (takeMove_next_or_stop m _).imp_right fun ⟨f, h⟩ => ⟨m, f, rfl, h⟩

/-- A fault of the machine has its move. -/
theorem stop_of_step {s : State} {f : Fault} (h : step s = .fault f) :
    ∃ m, s.moves.head? = some m ∧ Stop (popped s) m f := by
  obtain ⟨t, ht⟩ | ⟨m, g, hm, hstop⟩ := step_next_or_stop s
  · cases ht.symm.trans h
  · cases (step_of_stop hm hstop).symm.trans h
    exact ⟨m, hm, hstop⟩

/-- Settles O41: each of the moves is one of `Stop`. -/
theorem movesThatNoAgentHasStopTheMachine : Obligations.MovesThatNoAgentHasStopTheMachine := by
  intro s n rest
  have hhead : ∀ {m : Move}, s.moves = m :: rest → s.moves.head? = some m := fun hm => by rw [hm, List.head?_cons]
  refine ⟨fun hm hp => ?_, fun b hm hp hlt => ?_, fun hm ha => step_of_stop (hhead hm) (.settle n ha),
    fun hm hh hn => step_of_stop (hhead hm) (.drop n hh hn)⟩
  · obtain hok | herr := hm
    · exact step_of_stop (hhead hok) (.ok n hp)
    · exact step_of_stop (hhead herr) (.err n fun b hb => nomatch hp.symm.trans hb)
  · exact step_of_stop (hhead hm) (.err n fun c hc => by cases hp.symm.trans hc; exact hlt)

theorem step_not_refused (s : State) (r : Refusal) : step s ≠ .refused r := by
  obtain ⟨t, ht⟩ | ⟨m, f, hm, hstop⟩ := step_next_or_stop s
  · rw [ht]
    nofun
  · rw [step_of_stop hm hstop]
    nofun

theorem step_outsideWindow_iff (s : State) :
    step s = .fault .outsideWindow ↔ s.hostStopped = false ∧
      ∃ addr n, (s.moves.head? = some (.hostRead addr n) ∨ ∃ v, s.moves.head? = some (.hostWrite addr n v)) ∧
        ¬ (s.params.base ≤ addr ∧ addr < s.params.base + 0x40000) := by
  constructor
  · intro h
    obtain ⟨m, hm, hstop⟩ := stop_of_step h
    cases hstop with
    | write addr n v hh ho => exact ⟨hh, addr, n, .inr ⟨v, hm⟩, windowOffset_eq_none.1 ho⟩
    | read addr n hh ho => exact ⟨hh, addr, n, .inl hm, windowOffset_eq_none.1 ho⟩
  · rintro ⟨hh, addr, n, hm | ⟨v, hm⟩, hout⟩
    · exact step_of_stop hm (.read addr n hh (windowOffset_eq_none.2 hout))
    · exact step_of_stop hm (.write addr n v hh (windowOffset_eq_none.2 hout))

/-- Settles O53: the outcome of a step is a next state or the fault of a move in `Stop`, whose cases are the ones named. -/
theorem machineStopsOnlyOnMovesOutsideTheSpec : Obligations.MachineStopsOnlyOnMovesOutsideTheSpec := by
  refine fun s => ⟨step_not_refused s, fun f h => ?_, step_outsideWindow_iff s, fun h => ?_⟩
  · obtain ⟨m, hm, hstop⟩ := stop_of_step h
    rw [hm]
    cases hstop <;> simp
  · obtain ⟨m, hm, hstop⟩ := stop_of_step h
    cases hstop with
    | drop n hh hn => exact .inr (.inr (.inr ⟨n, hm, hh, hn⟩))
    | ok k hp => exact .inl ⟨hp, k, .inl hm⟩
    | err p hlt =>
      cases hp : s.pending with
      | none => exact .inl ⟨rfl, p, .inr hm⟩
      | some b => exact .inr (.inl ⟨p, b, hm, rfl, hlt b hp⟩)
    | settle p hlt => exact .inr (.inr (.inl ⟨p, hm, hlt⟩))

end Sys2Proof.Machine
end

section
/-! PROOFS. What the checksum sees of LEN and of the payload, and when the availability check passes. -/

namespace Sys2Proof.Machine

/-! ## The checksum -/

/-- Of LEN only the low byte counts (R113). -/
theorem accumulate_congr_len {len len' : Half} (h : len.toNat % 256 = len'.toNat % 256) (p : List Byte) :
    accumulate len p = accumulate len' p := by
  apply BitVec.eq_of_toNat_eq
  rw [accumulate_toNat, accumulate_toNat]
  omega

/-- A change of exactly one payload byte changes the sum by less than 256, so it changes the checksum (R114). -/
theorem checksum_ne_of_byte_ne (p q : List Byte) {b c : Byte} (h : b ≠ c) :
    checksum (p ++ b :: q) ≠ checksum (p ++ c :: q) := by
  intro heq
  have hnat := congrArg BitVec.toNat heq
  have hne : b.toNat ≠ c.toNat := fun hbc => h (BitVec.eq_of_toNat_eq hbc)
  have hb := b.isLt
  have hc := c.isLt
  simp only [checksum_toNat, List.length_append, List.length_cons, List.map_append, List.map_cons, List.sum_append,
    List.sum_cons] at hnat
  omega

/-- Settles O10: the sum is taken modulo 256, so a change below 256 is seen; of a swap of two bytes nothing is seen. -/
theorem checksumSeesEverySingleByteChange : Obligations.ChecksumSeesEverySingleByteChange :=
  ⟨fun _ _ p h => accumulate_congr_len h p, fun p q _ _ h => checksum_ne_of_byte_ne p q h,
    [0x01#8, 0x00#8], [0x00#8, 0x01#8], by decide, rfl, by decide⟩

/-! ## The availability check -/

/-- RX_VALIDATE ends the RECV exactly when the length check fails (R167, R168). -/
theorem recvValidate_seq_idle_iff (s : State) :
    (recvValidate s).seq = .idle ↔ lengthOk s.params.availCheck s.rxq.length (s.h1 ++ s.h2) = false := by
  obtain ⟨hfail, h⟩ | ⟨hpass, h⟩ := recvValidate_cases s
  · rw [h]
    exact iff_of_true rfl hfail
  · rw [h, hpass]
    refine iff_of_false ?_ nofun
    change ¬ ite _ Seq.rxSum Seq.rxPay = .idle
    split <;> nofun

/-- Settles O29: the RECV goes on exactly when `lengthOk` holds, which under each AVAIL_CHECK is an equation between the
count and LEN or its low byte. -/
theorem availabilityWindow : Obligations.AvailabilityWindow := by
  intro s hs len
  have hlen : (s.h1 ++ s.h2 : Half).toNat = len := lenOfHeader_toNat s.h1 s.h2
  have hidle : (recvValidate s).seq = .idle ↔ ¬ lengthOk s.params.availCheck s.rxq.length (s.h1 ++ s.h2) = true := by
    rw [recvValidate_seq_idle_iff, Bool.not_eq_true]
  have hlow : len % 256 = s.h2.toNat := by
    have := s.h2.isLt
    omega
  rw [lengthOk_iff, hlen] at hidle
  refine ⟨recvValidate s, exec_recv_rxValidate hs, fun h => ?_, fun hmode hpos => ?_, fun hmode hlong hall => ?_,
    fun hmode hpos hcount => ?_, fun hzero => ?_⟩
  · rw [recvValidate_failed ((recvValidate_seq_idle_iff s).1 h)]
    exact ⟨rfl, rfl⟩
  · rw [ne_eq, hidle, not_not]
    obtain ⟨hmode, hshort⟩ | hmode := hmode
    · simp only [hmode]
      omega
    · simp only [hmode]
      omega
  · rw [hidle, hmode]
    simp only
    omega
  · rw [ne_eq, hidle, not_not, hmode]
    exact ⟨hpos, hcount.trans hlow.symm⟩
  · exact hidle.2 fun ⟨hpos, _⟩ => by omega

end Sys2Proof.Machine
end

section
/-! PROOFS. Runs of the block: its turns in a row, a whole SEND and a whole RECV. -/

namespace Sys2Proof.Machine

/-! ## Turns in a row -/

/-- The moves to come are not read by the block. -/
theorem advance_withMoves (s : State) (ms : List Move) :
    advance { s with moves := ms } = { advance s with moves := ms } :=
  advance_mapControl id (fun _ => ms) s

theorem advance_moves (s : State) : (advance s).moves = s.moves :=
  (congrArg State.moves (advance_withMoves s s.moves) :)

theorem iterate_advance_withMoves (s : State) (ms : List Move) (k : Nat) :
    advance^[k] { s with moves := ms } = { advance^[k] s with moves := ms } :=
  Function.Commute.iterate_left (f := advance) (g := fun s => { s with moves := ms })
    (fun s => advance_withMoves s ms) k s

/-- A block that has not faulted after k turns had not faulted before them. -/
theorem blockStopped_of_iterate {s : State} {k : Nat} (h : (advance^[k] s).blockStopped = false) :
    s.blockStopped = false := by
  induction k generalizing s with
  | zero => exact h
  | succ k ih =>
    obtain ⟨-, -, hblock⟩ := advance_keepsFaults s
    have hnext := ih h
    exact Bool.eq_false_iff.2 fun hs => Bool.eq_false_iff.1 hnext (hblock hs)

/-- With its turn listed, or with no move listed, a block that has not faulted takes its next step. -/
theorem step_turn {s : State} (hb : s.blockStopped = false) (hm : ∀ m, s.moves.head? = some m → m = .block) :
    step s = .next (advance (popped s)) := by
  cases hmoves : s.moves with
  | nil =>
    have hpop : popped s = s := by
      rw [popped, hmoves, List.tail_nil, ← hmoves]
    rw [step_alone hb hmoves, hpop]
  | cons m rest =>
    obtain rfl : m = .block := hm m (by rw [hmoves, List.head?_cons])
    rw [step_block hb hmoves, popped, hmoves, List.tail_cons]

/-- k turns of a block that does not fault, each listed or with no move listed. -/
theorem run_turns {s t : State} {k : Nat} (ht : advance^[k] s = t) (hb : t.blockStopped = false)
    (hm : ∀ m ∈ s.moves.take k, m = .block) : core.run k s = .next { t with moves := s.moves.drop k } := by
  induction k generalizing s t with
  | zero =>
    subst ht
    rfl
  | succ k ih =>
    have hhead : ∀ m, s.moves.head? = some m → m = .block := fun m hhead => hm m (by
      obtain ⟨rest, hrest⟩ := List.head?_eq_some_iff.1 hhead
      rw [hrest]
      exact List.mem_cons_self)
    have hiter : advance^[k] (advance (popped s)) = { t with moves := s.moves.tail } := by
      rw [← Function.iterate_succ_apply, popped, iterate_advance_withMoves, ht]
    have hmoves : (advance (popped s)).moves = s.moves.tail := advance_moves _
    have htail : ∀ m ∈ s.moves.tail.take k, m = .block := fun m hmem => hm m (by
      cases hs : s.moves with
      | nil => simp [hs] at hmem
      | cons n rest =>
        rw [hs] at hmem
        exact List.mem_cons_of_mem n hmem)
    rw [run_next (step_turn (blockStopped_of_iterate (ht.symm ▸ hb)) hhead), ih hiter hb (hmoves.symm ▸ htail), hmoves,
      List.drop_tail]

/-! ## A whole SEND -/

/-- The transport's move that gives the reply r, having delivered the first k bytes. -/
def replyMove (r : Reply) (k : Nat) : Move :=
  match r with
  | .ok _ => .replyOk k
  | .err => .replyErr k

/-- A reply OK(k), or ERR after at most all of the request, is answered with its first k bytes (R64). -/
theorem step_replyMove {s : State} {b : List Byte} {r : Reply} {k : Nat} {rest : List Move} (hp : s.pending = some b)
    (hr : r = .ok k ∨ (r = .err ∧ k ≤ b.length)) (hm : s.moves = replyMove r k :: rest) :
    step s = .next (answer r k b { s with moves := rest }) := by
  obtain rfl | ⟨rfl, hle⟩ := hr
  · exact step_replyOk hp hm
  · exact step_replyErr hp hle hm

/-- The state after the assembly of p: the frame in TXB and in the request (R132 to R134). -/
def assembled (s : State) (p : List Byte) : State :=
  txWriteRequest (frameOf p)
    { latchSum (checksum p) s with txb := Memory.writeBytes s.txb 0 (frameOf p), seq := .txWrite }

/-- The turn in TX_ASM with the payload in TXP. -/
theorem step_assembled {s : State} {p : List Byte} {rest : List Move} (hs : s.seq = .txAsm)
    (hb : s.blockStopped = false) (hl : s.curLen.toNat ≤ 65534) (hlen : p.length = s.curLen.toNat) (hp : s.txp.holds p)
    (hm : s.moves = .block :: rest) : step s = .next (assembled { s with moves := rest } p) := by
  rw [step_block hb hm, advance_txAsm (s := { s with moves := rest }) hs,
    sendAssemble_frame (s := { s with moves := rest }) hl hlen hp, assembled]

/-- The state a SEND of n bytes ends in after its reply (R136, R137). -/
def reported (s : State) (n : Nat) : State :=
  finish (wroteAll s.wreply n) (if wroteAll s.wreply n then .none else .transmitIncomplete)
    { s with txWritten := txWrittenWord s.wreply }

/-- The turn in TX_WRITE after the reply. -/
theorem step_reported {s : State} {n : Nat} {rest : List Move} (hs : s.seq = .txWrite) (hb : s.blockStopped = false)
    (hp : s.pending = none) (hn : s.curLen.toNat = n) (hm : s.moves = .block :: rest) :
    step s = .next (reported { s with moves := rest } n) := by
  subst hn
  rw [step_block hb hm, advance_txWrite (s := { s with moves := rest }) hs,
    sendReply_replied (s := { s with moves := rest }) hp, reported]

/-- The state a whole SEND of p ends in, with the reply r after the first k bytes of the frame (R130 to R137). -/
def sent (s : State) (p : List Byte) (r : Reply) (k : Nat) : State :=
  reported (answer r k (frameOf p) (assembled (acceptOf (.send (BitVec.ofNat 16 p.length)) s) p)) p.length

/-- The four steps of a SEND: the accept, the assembly, the transport's reply, and the end. -/
theorem run_send {s : State} {p : List Byte} {w : Word} {r : Reply} {k : Nat} {rest : List Move} (hs : s.seq = .idle)
    (hh : s.hostStopped = false) (hb : s.blockStopped = false) (hlen : p.length ≤ 65534) (hp : s.txp.holds p)
    (hd : decode w = .command (.send (BitVec.ofNat 16 p.length)))
    (hr : r = .ok k ∨ (r = .err ∧ k ≤ p.length + 4))
    (hm : s.moves = .hostWrite (regAddr s.params .cmd) 4 w :: .block :: replyMove r k :: .block :: rest) :
    core.run 4 s = .next (sent { s with moves := rest } p r k) := by
  have hcur : (BitVec.ofNat 16 p.length).toNat = p.length := by
    rw [BitVec.toNat_ofNat]
    omega
  have haccept := step_command hs hh hb hm hd
  have hask := step_assembled (p := p) (rest := replyMove r k :: .block :: rest)
    (s := acceptOf (.send (BitVec.ofNat 16 p.length)) { s with moves := .block :: replyMove r k :: .block :: rest })
    rfl hb (hcur.trans_le hlen) hcur.symm hp rfl
  have hreply := step_replyMove (b := frameOf p) (k := k) (rest := .block :: rest)
    (s := assembled (acceptOf (.send (BitVec.ofNat 16 p.length)) { s with moves := replyMove r k :: .block :: rest }) p)
    rfl (by rwa [frameOf_length]) rfl
  have hend := step_reported (n := p.length) (rest := rest)
    (s := answer r k (frameOf p)
      (assembled (acceptOf (.send (BitVec.ofNat 16 p.length)) { s with moves := .block :: rest }) p))
    rfl hb rfl hcur rfl
  calc core.run 4 s
    _ = core.run 3 _ := run_next haccept 3
    _ = core.run 2 _ := run_next hask 2
    _ = core.run 1 _ := run_next hreply 1
    _ = .next (sent { s with moves := rest } p r k) := run_next hend 0

/-- The reply a transport's move gives, with what RESULT and TX_WRITTEN make of it (R136, R137). -/
theorem exists_reply {m : Move} {k n : Nat} (h : m = .replyOk k ∨ (m = .replyErr k ∧ k ≤ n + 4)) :
    ∃ r, m = replyMove r k ∧ (r = .ok k ∨ (r = .err ∧ k ≤ n + 4)) ∧ wroteAll r n = decide (m = .replyOk (n + 4)) ∧
      txWrittenWord r = if m = .replyOk k then BitVec.ofNat 32 (k % 131072) else 0x80000000#32 := by
  obtain rfl | ⟨rfl, hle⟩ := h
  · exact ⟨.ok k, rfl, .inl rfl, by rw [wroteAll_ok, decide_eq_decide, Move.replyOk.injEq], (if_pos rfl).symm⟩
  · exact ⟨.err, rfl, .inr ⟨rfl, hle⟩, (decide_eq_false nofun).symm, (if_neg nofun).symm⟩

/-- The word of a SEND as the number it is (R80). -/
theorem decode_sendWord {n : Nat} (h : n ≤ 65534) :
    decode (BitVec.ofNat 32 (n * 65536 + 1)) = .command (.send (BitVec.ofNat 16 n)) := by
  have hword : (BitVec.ofNat 32 (n * 65536 + 1)).toNat = n * 65536 + 1 := by
    rw [BitVec.toNat_ofNat]
    omega
  have hdiv : (n * 65536 + 1) / 65536 = n := by omega
  rw [decode_send (by omega), wordLength_eq_ofNat, hword, hdiv]

/-- Settles O18: the run ends in `sent`, whose fields are the ones named, for the reply OK and for ERR. -/
theorem sendPutsTheFrameOnTheWire : Obligations.SendPutsTheFrameOnTheWire := by
  intro s p k m rest hs hh hb hlen hp hreply hm
  obtain ⟨r, hmove, hr, hall, hwritten⟩ := exists_reply hreply
  have herr : (sent { s with moves := rest } p r k).err =
      if m = .replyOk (p.length + 4) then .none else .transmitIncomplete := by
    change (if wroteAll r p.length = true then Err.none else .transmitIncomplete) = _
    simp only [hall, decide_eq_true_eq]
  refine ⟨_, run_send hs hh hb hlen hp (decode_sendWord hlen) hr (hmove ▸ hm), rfl, rfl, hall, herr, rfl, hwritten, ?_⟩
  exact ⟨rfl, rfl, rfl, rfl, rfl, rfl, rfl, rfl, rfl, rfl, rfl, rfl⟩

end Sys2Proof.Machine
end

section
/-! PROOFS. A whole RECV: its turns from the header to the checksum, the two ways it ends, the round trip and a corrupted
frame. -/

namespace Sys2Proof.Machine

/-! ## The turns of a RECV -/

/-- Three turns take the header (R161). -/
theorem iterate_header {s : State} {sync hi lo : Byte} {q : List Byte} (hs : s.seq = .rxHdr) (hi0 : s.idx = 0#17)
    (hq : s.rxq = sync :: hi :: lo :: q) :
    advance^[3] s = { s with rxq := q, h0 := sync, h1 := hi, h2 := lo, idx := 3#17, seq := .rxValidate } := by
  have h1 : advance s = { s with rxq := hi :: lo :: q, h0 := sync, idx := 1#17, seq := .rxHdr } := by
    rw [advance_rxHdr hs, recvHeader_byte hq, hi0]
    rfl
  have h2 : advance (advance s) = { s with rxq := lo :: q, h0 := sync, h1 := hi, idx := 2#17, seq := .rxHdr } := by
    rw [h1, advance_rxHdr rfl, recvHeader_byte rfl]
    rfl
  change advance (advance (advance s)) = _
  rw [h2, advance_rxHdr rfl, recvHeader_byte rfl]
  rfl

/-- The turns of RX_PAY take the payload to RXP, one byte each, and leave the decoder in RX_SUM (R168). -/
theorem iterate_payload {s : State} {p q : List Byte} (hs : s.seq = if p = [] then .rxSum else .rxPay)
    (hq : s.rxq = p ++ q) (hlen : s.idx.toNat + p.length = s.plen.toNat) :
    advance^[p.length] s =
      { s with rxq := q, rxp := Memory.writeBytes s.rxp s.idx.toNat p, idx := s.plen, seq := .rxSum } := by
  induction p generalizing s with
  | nil =>
    have hidx : s.idx = s.plen := BitVec.eq_of_toNat_eq hlen
    cases s
    cases hq
    cases hs
    cases hidx
    rfl
  | cons b p ih =>
    rw [if_neg (List.cons_ne_nil b p)] at hs
    rw [List.length_cons] at hlen
    have hplen := s.plen.isLt
    have hnext : (s.idx + 1#17).toNat = s.idx.toNat + 1 := by
      rw [BitVec.toNat_add, BitVec.toNat_ofNat]
      omega
    have hlast : s.idx + 1#17 = s.plen ↔ p = [] := by
      rw [← BitVec.toNat_inj, hnext, ← List.length_eq_zero_iff]
      omega
    rw [List.length_cons, Function.iterate_succ_apply, advance_rxPay hs, recvPayload_byte hq, ih]
    · rw [Memory.writeBytes, hnext]
    · simp only [hlast]
    · rfl
    · change (s.idx + 1#17).toNat + p.length = s.plen.toNat
      omega

/-- The state in which a frame has been taken from RXQ, its checksum byte last, before it is verified (R161 to R169). -/
def frameTaken (s : State) (sync hi lo sum : Byte) (p behind : List Byte) : State :=
  { s with
    seq := .rxVerify
    rxq := behind
    h0 := sync
    h1 := hi
    h2 := lo
    lenf := hi ++ lo
    rxLen := rxLenWord (hi ++ lo)
    rxInfo := rxInfoWord (hi ++ lo) sum sync
    rxPresent := true
    avs := p.length + 1 + behind.length
    plen := (hi ++ lo : Half).setWidth 17 - 1#17
    idx := (hi ++ lo : Half).setWidth 17 - 1#17
    rxp := Memory.writeBytes s.rxp 0 p
    rxs := sum }

/-- The turns of a RECV whose length check passes, up to the one that verifies. -/
theorem iterate_frame {s : State} {sync hi lo sum : Byte} {p behind : List Byte} (hs : s.seq = .rxHdr)
    (hi0 : s.idx = 0#17) (hq : s.rxq = sync :: hi :: lo :: (p ++ sum :: behind))
    (hlen : (hi ++ lo : Half).toNat = p.length + 1)
    (hpass : lengthOk s.params.availCheck (p.length + 1 + behind.length) (hi ++ lo) = true) :
    advance^[p.length + 5] s = frameTaken s sync hi lo sum p behind := by
  have hpos : 1 ≤ (hi ++ lo : Half).toNat := by omega
  have hcount : (p ++ sum :: behind).length = p.length + 1 + behind.length := by
    rw [List.length_append, List.length_cons]
    omega
  have hplen : ((hi ++ lo : Half).setWidth 17 - 1#17).toNat = p.length := by
    rw [plenOfLen_toNat hpos]
    omega
  have hzero : (hi ++ lo : Half).setWidth 17 - 1#17 = 0#17 ↔ p = [] := by
    rw [plenOfLen_eq_zero_iff hpos, ← List.length_eq_zero_iff]
    omega
  have hsplit : p.length + 5 = 1 + p.length + 1 + 3 := by omega
  rw [hsplit, Function.iterate_add_apply, iterate_header hs hi0 hq, Function.iterate_succ_apply, advance_rxValidate rfl,
    recvValidate_passed (by rwa [hcount]), Function.iterate_add_apply, iterate_payload (q := sum :: behind)]
  · rw [Function.iterate_one, advance_rxSum rfl, recvSum_byte rfl]
    simp only [recvMeasure, rxAvail, hcount, setRxSum_rxInfoWord]
    rfl
  · simp only [hzero]
  · rfl
  · exact (Nat.zero_add p.length).trans hplen.symm

/-! ## A whole RECV -/

theorem frameTaken_holds (s : State) (sync hi lo sum : Byte) (p behind : List Byte) :
    (frameTaken s sync hi lo sum p behind).rxp.holds p := by
  intro i hi'
  have hread := Memory.read_writeBytes s.rxp (a := 0) hi'
  rwa [Nat.zero_add] at hread

/-- The verification of the frame taken compares its SUM with the checksum of its payload (R170 to R173). -/
theorem recvVerify_frameTaken {sync hi lo sum : Byte} {p : List Byte} (s : State) (behind : List Byte)
    (hlen : (hi ++ lo : Half).toNat = p.length + 1) :
    (sum = checksum p → recvVerify (frameTaken s sync hi lo sum p behind) =
      { frameTaken s sync hi lo sum p behind with
        acc := checksum p, lastSum := (checksum p).setWidth 32, sumValid := true, rxValid := true, errFrame := false,
        result := true, err := .none, seq := .idle }) ∧
    (sum ≠ checksum p → recvVerify (frameTaken s sync hi lo sum p behind) =
      { frameTaken s sync hi lo sum p behind with
        acc := checksum p, lastSum := (checksum p).setWidth 32, sumValid := true, rxValid := false, errFrame := true,
        result := false, err := .checksumMismatch, pending := some Config.errorFrame, seq := .rxErrf }) := by
  have hplen : (frameTaken s sync hi lo sum p behind).plen.toNat = p.length := by
    change ((hi ++ lo : Half).setWidth 17 - 1#17).toNat = p.length
    rw [plenOfLen_toNat (by omega)]
    omega
  obtain ⟨hmatch, hmismatch⟩ := recvVerifiesTheChecksum (frameTaken s sync hi lo sum p behind) p rfl hplen hlen
    (frameTaken_holds s sync hi lo sum p behind)
  rw [exec_recv_rxVerify rfl] at hmatch hmismatch
  exact ⟨fun h => Host.Outcome.next.inj (hmatch h.symm), fun h => Host.Outcome.next.inj (hmismatch h.symm)⟩

/-- The turns of a RECV that takes its frame, the one that verifies included. -/
theorem iterate_recv {s : State} {sync hi lo sum : Byte} {p behind : List Byte} (hs : s.seq = .rxHdr)
    (hi0 : s.idx = 0#17) (hq : s.rxq = sync :: hi :: lo :: (p ++ sum :: behind))
    (hlen : (hi ++ lo : Half).toNat = p.length + 1)
    (hpass : lengthOk s.params.availCheck (p.length + 1 + behind.length) (hi ++ lo) = true) :
    advance^[p.length + 6] s = recvVerify (frameTaken s sync hi lo sum p behind) := by
  rw [Function.iterate_succ_apply', iterate_frame hs hi0 hq hlen hpass]
  exact advance_rxVerify rfl

/-- The RECV word of R85. -/
theorem decode_recvWord : decode 0x00000002#32 = .command .recv :=
  decode_recv rfl

/-- The run of a RECV from the host's write, the block's turns being listed or no other move being so. -/
theorem run_recv {s : State} {sync hi lo sum : Byte} {p behind : List Byte} {rest : List Move} (hs : s.seq = .idle)
    (hh : s.hostStopped = false) (hb : s.blockStopped = false)
    (hq : s.rxq = sync :: hi :: lo :: (p ++ sum :: behind)) (hlen : (hi ++ lo : Half).toNat = p.length + 1)
    (hpass : lengthOk s.params.availCheck (p.length + 1 + behind.length) (hi ++ lo) = true)
    (hm : s.moves = .hostWrite (regAddr s.params .cmd) 4 0x00000002#32 :: rest)
    (hrest : ∀ m ∈ rest.take (p.length + 6), m = .block) :
    core.run (p.length + 7) s = .next
      { recvVerify (frameTaken (acceptOf .recv { s with moves := rest }) sync hi lo sum p behind) with
        moves := rest.drop (p.length + 6) } := by
  have haccept := step_command hs hh hb hm decode_recvWord
  have hturns := iterate_recv (s := acceptOf .recv { s with moves := rest }) rfl rfl hq hlen hpass
  obtain ⟨-, -, hsame⟩ := advance_recv_sameFaults
    (s := frameTaken (acceptOf .recv { s with moves := rest }) sync hi lo sum p behind) rfl
  rw [advance_rxVerify rfl] at hsame
  exact (run_next haccept _).trans (run_turns hturns (hsame.trans hb) hrest)

/-- The two LEN bytes of a frame, high byte first (R82, R86). -/
theorem lenBytes_toNat {n : Nat} (h : n ≤ 65535) :
    (BitVec.ofNat 8 (n / 256) ++ BitVec.ofNat 8 (n % 256) : Half).toNat = n := by
  rw [lenOfHeader_toNat, BitVec.toNat_ofNat, BitVec.toNat_ofNat]
  omega

/-- RX_LEN of a header whose LEN is n + 1 (R33). -/
theorem rxLenWord_of_len {len : Half} {n : Nat} (h : len.toNat = n + 1) : rxLenWord len = BitVec.ofNat 32 n := by
  have hlt := len.isLt
  have hmod : (len.toNat + 65535) % 65536 = n := by omega
  rw [rxLenWord_eq_ofNat, hmod]

/-- RX_INFO of a whole frame as the number it is (R34). -/
theorem rxInfoWord_eq_ofNat (len : Half) (sum hdr0 : Byte) :
    rxInfoWord len sum hdr0 = BitVec.ofNat 32 (len.toNat * 65536 + sum.toNat * 256 + hdr0.toNat) := by
  rw [← rxInfoWord_toNat, BitVec.ofNat_toNat, BitVec.setWidth_eq]

/-- Settles O27: the run ends in the verification of `frameTaken`, which matches or does not. -/
theorem recvTakesOneFrame : Obligations.RecvTakesOneFrame := by
  intro s sync sum p behind hs hh hb hpending hn hq hm hcount
  have hlen := lenBytes_toNat (n := p.length + 1) (by omega)
  generalize BitVec.ofNat 8 ((p.length + 1) / 256) = hi at hq hlen
  generalize BitVec.ofNat 8 ((p.length + 1) % 256) = lo at hq hlen
  have hpass : lengthOk s.params.availCheck (p.length + 1 + behind.length) (hi ++ lo) = true := by
    rw [lengthOk_iff, hlen]
    refine ⟨by omega, ?_⟩
    cases hmode : s.params.availCheck with
    | lowByte | lowByteMod => rwa [hmode] at hcount
    | full =>
      rw [hmode] at hcount
      simp [hcount]
  have hrun := run_recv hs hh hb hq hlen hpass hm (by simp)
  obtain ⟨hmatch, hmismatch⟩ := recvVerify_frameTaken (sync := sync) (sum := sum)
    (acceptOf .recv { s with moves := [] }) behind hlen
  have hholds := frameTaken_holds (acceptOf .recv { s with moves := [] }) sync hi lo sum p behind
  have hinfo := rxInfoWord_eq_ofNat (hi ++ lo) sum sync
  rw [hlen] at hinfo
  by_cases hsum : sum = checksum p
  · rw [hmatch hsum] at hrun
    refine ⟨_, hrun, rfl, hholds, rfl, rxLenWord_of_len hlen, hinfo, rfl, rfl, rfl, rfl, rfl, rfl, rfl, ?_⟩
    rw [if_pos hsum]
    exact ⟨rfl, rfl, rfl, rfl, rfl, hpending⟩
  · rw [hmismatch hsum] at hrun
    refine ⟨_, hrun, rfl, hholds, rfl, rxLenWord_of_len hlen, hinfo, rfl, rfl, rfl, rfl, rfl, rfl, rfl, ?_⟩
    rw [if_neg hsum]
    exact ⟨rfl, rfl, rfl, rfl, rfl, rfl⟩

/-- The state a RECV ends in whose length check fails: the three header bytes taken, and no more (R167, R176). -/
def headerRejected (s : State) (sync hi lo : Byte) (behind : List Byte) : State :=
  finish false .lengthMismatch
    { recvMeasure { s with rxq := behind, h0 := sync, h1 := hi, h2 := lo, idx := 3#17, seq := .rxValidate } with
      rxValid := false, errFrame := false }

theorem iterate_headerRejected {s : State} {sync hi lo : Byte} {behind : List Byte} (hs : s.seq = .rxHdr)
    (hi0 : s.idx = 0#17) (hq : s.rxq = sync :: hi :: lo :: behind)
    (hfail : lengthOk s.params.availCheck behind.length (hi ++ lo) = false) :
    advance^[4] s = headerRejected s sync hi lo behind := by
  rw [Function.iterate_succ_apply', iterate_header hs hi0 hq, advance_rxValidate rfl, recvValidate_failed (by exact hfail)]
  rfl

/-- Settles O28: three turns take the header, and the fourth fails the check. -/
theorem recvRejectsALengthMismatch : Obligations.RecvRejectsALengthMismatch := by
  intro s sync hi lo behind hs hh hb hq hm hfail
  have haccept := step_command hs hh hb hm decode_recvWord
  have hturns := iterate_headerRejected (s := acceptOf .recv { s with moves := [] }) rfl rfl hq hfail
  have hquiet : ∀ m ∈ (acceptOf .recv { s with moves := [] }).moves.take 4, m = .block := nofun
  have hrun := (run_next haccept 4).trans (run_turns hturns hb hquiet)
  refine ⟨_, hrun, rfl, rfl, rfl, rfl, rfl, rfl, rfl, ?_, rfl, rfl, rfl, rfl, rfl, rfl⟩
  rw [← lenOfHeader_toNat]
  exact rxLenWord_eq_ofNat (hi ++ lo)

/-! ## The round trip -/

/-- A frame that is the whole of RXQ passes the check under each AVAIL_CHECK, under LOW_BYTE with LEN at most 255 (R248). -/
theorem lengthOk_whole {mode : AvailCheck} {len : Half} {n : Nat} (hlen : len.toNat = n + 1)
    (hlow : mode = .lowByte → n + 1 ≤ 255) : lengthOk mode (n + 1) len = true := by
  rw [lengthOk_iff, hlen]
  refine ⟨by omega, ?_⟩
  cases mode with
  | lowByte =>
    have := hlow rfl
    exact (Nat.mod_eq_of_lt (by omega)).symm
  | lowByteMod | full => rfl

/-- The frame of a payload as RXQ holds it: the three header bytes, the payload, SUM (R86). -/
theorem frameOf_cons (p : List Byte) :
    frameOf p = 0xE0#8 :: BitVec.ofNat 8 ((p.length + 1) / 256) :: BitVec.ofNat 8 ((p.length + 1) % 256) ::
      (p ++ [checksum p]) := rfl

/-- The word of RECV is the one R85 writes out. -/
theorem encode_recv : encode .recv = 0x00000002#32 := by
  decide

/-- The second half of the round trip: the frame arrives in an empty RXQ, and a RECV takes it. -/
theorem run_append_recv {s : State} {p : List Byte} (hs : s.seq = .idle) (hh : s.hostStopped = false)
    (hb : s.blockStopped = false) (hq : s.rxq = []) (hn : p.length ≤ 65534)
    (hlow : s.params.availCheck = .lowByte → p.length + 1 ≤ 255)
    (hm : s.moves = [.peerAppend (frameOf p), .hostWrite (regAddr s.params .cmd) 4 (encode .recv)]) :
    ∃ t : State, core.run (p.length + 8) s = .next t ∧ t.seq = .idle ∧ t.rxValid = true ∧ t.result = true ∧
      t.err = .none ∧ t.rxPresent = true ∧ t.rxLen = BitVec.ofNat 32 p.length ∧ t.rxp.holds p ∧ t.rxq = [] := by
  have hlen := lenBytes_toNat (n := p.length + 1) (by omega)
  have happend : step s = .next { s with
      moves := [.hostWrite (regAddr s.params .cmd) 4 0x00000002#32], rxq := frameOf p } := by
    rw [step_cons hm, encode_recv, takeMove, peerAppend, hq, List.nil_append]
  have hrecv := run_recv (behind := []) (rest := [])
    (s := { s with moves := [.hostWrite (regAddr s.params .cmd) 4 0x00000002#32], rxq := frameOf p })
    hs hh hb (frameOf_cons p) hlen (lengthOk_whole hlen hlow) rfl (by simp)
  have hholds := frameTaken_holds (acceptOf .recv { s with moves := [], rxq := frameOf p }) 0xE0#8
    (BitVec.ofNat 8 ((p.length + 1) / 256)) (BitVec.ofNat 8 ((p.length + 1) % 256)) (checksum p) p []
  rw [(recvVerify_frameTaken _ _ hlen).1 rfl] at hrecv
  exact ⟨_, (run_next happend _).trans hrecv, rfl, rfl, rfl, rfl, rfl, rxLenWord_of_len hlen, hholds, rfl⟩

/-- Settles O30: the SEND ends in `sent`, whose TXS gained the whole frame, and a RECV takes the frame that arrived. -/
theorem roundTrip : Obligations.RoundTrip := by
  rintro s p wire hs hh hb hq hn hp hlow hm ⟨u, hu, -, hwire⟩
  have hsend := run_send (r := .ok (p.length + 4)) hs hh hb hn hp (decode_encode _) (.inl rfl) hm
  cases hsend.symm.trans hu
  obtain rfl : frameOf p = wire := by
    have htake : (frameOf p).take (p.length + 4) = frameOf p := List.take_of_length_le (frameOf_length p).le
    have htxs := List.append_cancel_left hwire
    rwa [htake] at htxs
  obtain ⟨t, hrecv, hfields⟩ := run_append_recv
    (s := sent { s with moves := [.peerAppend (frameOf p), .hostWrite (regAddr s.params .cmd) 4 (encode .recv)] } p
      (.ok (p.length + 4)) (p.length + 4))
    rfl hh hb hq hn hlow rfl
  have hsteps : p.length + 12 = 4 + (p.length + 8) := by omega
  refine ⟨t, ?_, hfields⟩
  rw [hsteps]
  exact (run_append hsend _).trans hrecv

/-! ## A corrupted frame -/

/-- The turn in RX_ERRF after the reply ends the RECV (R174). -/
theorem step_errfEnded {s : State} {rest : List Move} (hs : s.seq = .rxErrf) (hb : s.blockStopped = false)
    (hp : s.pending = none) (hm : s.moves = .block :: rest) : step s = .next { s with moves := rest, seq := .idle } := by
  rw [step_block hb hm, advance_rxErrf (s := { s with moves := rest }) hs,
    recvErrf_replied (s := { s with moves := rest }) hp]

/-- The last two steps of a RECV whose frame was corrupt: the transport's reply to the error frame, and the end. -/
theorem run_errorReply {s : State} {k : Nat} {rest : List Move} (hs : s.seq = .rxErrf) (hb : s.blockStopped = false)
    (hp : s.pending = some Config.errorFrame) (hm : s.moves = .replyOk k :: .block :: rest) :
    core.run 2 s = .next { answer (.ok k) k Config.errorFrame { s with moves := rest } with seq := .idle } :=
  (run_next (step_replyOk hp hm) 1).trans
    (run_next (step_errfEnded (s := answer (.ok k) k Config.errorFrame { s with moves := .block :: rest })
      hs hb rfl rfl) 0)

/-- Settles O31: the changed byte changes the checksum, so the RECV ends in a mismatch, whose error frame the reply
delivers. -/
theorem singleByteCorruptionIsReported : Obligations.SingleByteCorruptionIsReported := by
  intro s p q b c hs hh hb _ hne hn hlow hq hm
  have hsum : checksum (p ++ b :: q) ≠ checksum (p ++ c :: q) := checksum_ne_of_byte_ne p q hne
  have hsame : (p ++ b :: q).length = (p ++ c :: q).length := by simp
  generalize checksum (p ++ b :: q) = sum at hq hsum
  rw [hsame] at hn hlow hq hm ⊢
  generalize p ++ c :: q = r at *
  have hlen := lenBytes_toNat (n := r.length + 1) (by omega)
  have hturns : ∀ m ∈ (List.replicate (r.length + 6) Move.block ++ [Move.replyOk 5, .block]).take (r.length + 6),
      m = .block := by
    rw [List.take_left' List.length_replicate]
    exact fun m hmem => List.eq_of_mem_replicate hmem
  have hrecv := run_recv (p := r) (behind := []) hs hh hb hq hlen (lengthOk_whole hlen hlow) hm hturns
  have hholds := frameTaken_holds
    (acceptOf .recv { s with moves := List.replicate (r.length + 6) .block ++ [.replyOk 5, .block] }) 0xE0#8
    (BitVec.ofNat 8 ((r.length + 1) / 256)) (BitVec.ofNat 8 ((r.length + 1) % 256)) sum r []
  rw [List.drop_left' List.length_replicate, (recvVerify_frameTaken _ _ hlen).2 hsum] at hrecv
  have hend := (run_append hrecv 2).trans (run_errorReply rfl hb rfl rfl)
  exact ⟨_, hend, rfl, rfl, rfl, rfl, rfl, rfl, hholds, rfl, rfl⟩

end Sys2Proof.Machine
end
